-- ==== Sys2Proof/Word.lean ====
section
/-! DEFINITION. The one word type of the block: a byte (R15).
Frames are byte sequences (R16); every operand of a command is an unbounded integer (R14). -/

namespace Sys2Proof

/-- A byte, bits numbered 7 down to 0 (R15). -/
abbrev Byte := BitVec 8

end Sys2Proof
end

