-- ==== Sys2Proof/Machine/Checksum.lean ====
section
/-! DEFINITION. The Checksum Module (R110, R111). -/

namespace Sys2Proof.Machine

/-- The exclusive-or of all bytes of a sequence; 0 for the empty one (R110's loop). -/
def xorBytes (bytes : List Byte) : Byte := bytes.foldl (· ^^^ ·) 0

/-- `CHECKSUM(body)` (R110): the XOR of all bytes from index 2 onward. A body shorter than 3 bytes has no
value (R111: `refuse`, in particular not 0). -/
def checksum (body : List Byte) : Option Byte :=
  if body.length < 3 then none else some (xorBytes (body.drop 2))

end Sys2Proof.Machine
end

