-- ==== Sys2Proof/Machine/Flags.lean ====
section
/-! DEFINITION. The only computation on a flags byte: the count rule (R132). The block stores no flags and
no condition codes (R33). -/

namespace Sys2Proof.Machine

/-- `COUNT(flags)` (R132): 0 when a bit of the high nibble is set or the low nibble is `0x0F`, else 1. -/
def countRule (flags : Byte) : Byte :=
  if flags &&& 0xF0 ≠ 0 ∨ flags &&& 0x0F = 0x0F then 0 else 1

end Sys2Proof.Machine
end

