-- ==== Sys2Proof/Machine/Operands.lean ====
section
/-! DEFINITION. The Field Codec: how an operand becomes payload bytes (R94, R114, R116) and the inverse
functions, which no command uses (R121 to R123). -/

namespace Sys2Proof.Machine

/-- `lo8(v) = v mod 256`, the remainder never negative (R17). -/
def lo8 (v : Int) : Byte := BitVec.ofNat 8 (v % 256).toNat

/-- `lo16(v) = v mod 65536` (R17). -/
def lo16 (v : Int) : Int := v % 65536

/-- `sext_16(u)` for `0 ≤ u ≤ 65535` (R17). -/
def sext16 (u : Nat) : Int := if u < 32768 then (u : Int) else (u : Int) - 65536

/-- `ENC8(v)` (R114): one byte, out-of-range values truncated. -/
def enc8 (v : Int) : List Byte := [lo8 v]

/-- `ENC16(v)` (R116, R65): low byte then high byte, floor division (for the positive divisor 256 Lean's
integer division is the floor division of R17). -/
def enc16 (v : Int) : List Byte := [lo8 v, lo8 (v / 256)]

/-- `DEC8([b])` (R121). -/
def dec8 (b : Byte) : Int := b.toNat

/-- `DEC16U([lo, hi])` (R122). -/
def dec16U (lo hi : Byte) : Int := lo.toNat + 256 * hi.toNat

/-- `DEC16S([lo, hi])` (R123). -/
def dec16S (lo hi : Byte) : Int := sext16 (lo.toNat + 256 * hi.toNat)

end Sys2Proof.Machine
end

