-- ==== Sys2Proof/Syntax.lean ====
section
/-! DEFINITION. One constructor per row of spec/opcode_table.json: the sixteen commands of the abstract
type `Command` (R25), operands in R25's order, and the two format rows (R98), which are functions inside
the block and no commands (R26). -/

namespace Sys2Proof

/-- Command operands are integers of any sign and size (R14); the operands of the two builder functions
are bytes where R130 and R137 say so. -/
inductive Instr where
  | writeFlashRom (id : Int)
  | reboot (id : Int)
  | factoryReset (id : Int)
  | setId (id newId : Int)
  | setReverse (id rev : Int)
  | setBaudrate (id index : Int)
  | setReturnDelay (id delay : Int)
  | setAngleLimit (id cwLimit ccwLimit : Int)
  | setTempLimit (id limit : Int)
  | setCompliance (id cwMargin ccwMargin cwSlope ccwSlope punch : Int)
  | setMove (id pos time : Int)
  | setMaxTorque (id pct : Int)
  | setTorque (id mode : Int)
  | setPID (id coef : Int)
  | torqueBatch (list : List Int)
  | moveBatch (list : List Int)
  | buildShort (id : Int) (flags address width : Byte) (data : List Byte)
  | buildLong (address width count : Byte) (data : List Byte)
  deriving DecidableEq, Repr

end Sys2Proof
end

