-- ==== Sys2Proof/Decode.lean ====
section
/-! DEFINITION. The operation map (R97, R98) read as an instruction encoding: a decoder of command frames,
total on any bytes and rejecting by name, and the encoder that writes the frame of an instruction straight
from the tables of R86, R87 and R97.
The encoder shares no text with the packet builder of the machine: that a command emits exactly its table
encoding is a theorem about the two.
No servo response is decoded (R104), and the decoder is no command of the block (R6, C10). -/

namespace Sys2Proof

open Machine

/-- The eighteen rows of spec/opcode_table.json. -/
inductive RowName where
  | writeFlashRom | reboot | factoryReset | setId | setReverse | setBaudrate | setReturnDelay
  | setAngleLimit | setTempLimit | setCompliance | setMove | setMaxTorque | setTorque | setPID
  | torqueBatch | moveBatch | buildShort | buildLong
  deriving DecidableEq, Repr

/-- A row of the table: a frame belongs to it when `(f[0..6] & mask) = pattern` byte by byte (R98). -/
structure OpRow where
  name    : RowName
  pattern : List Byte
  mask    : List Byte
  deriving DecidableEq, Repr

/-- A SHORT row masks out the id byte (R98). -/
def shortRow (name : RowName) (flags address length count : Byte) : OpRow :=
  { name, pattern := [0xFA, 0xAF, 0, flags, address, length, count],
    mask := [0xFF, 0xFF, 0, 0xFF, 0xFF, 0xFF, 0xFF] }

/-- A LONG row masks out the count byte (R98). -/
def longRow (name : RowName) (address length : Byte) : OpRow :=
  { name, pattern := [0xFA, 0xAF, 0, 0, address, length, 0],
    mask := [0xFF, 0xFF, 0xFF, 0xFF, 0xFF, 0xFF, 0] }

/-- The sixteen specific rows, bytes 0 to 6 as R97 lists them. -/
def specificRows : List OpRow :=
  [shortRow .writeFlashRom 0x40 0xFF 0x00 0x00,
   shortRow .reboot 0x20 0xFF 0x00 0x00,
   shortRow .factoryReset 0x10 0xFF 0x00 0x00,
   shortRow .setId 0x00 0x04 0x01 0x01,
   shortRow .setReverse 0x00 0x05 0x01 0x01,
   shortRow .setBaudrate 0x00 0x06 0x01 0x01,
   shortRow .setReturnDelay 0x00 0x07 0x01 0x01,
   shortRow .setAngleLimit 0x00 0x08 0x04 0x01] ++
  [shortRow .setTempLimit 0x00 0x0E 0x02 0x01,
   shortRow .setCompliance 0x00 0x18 0x06 0x01,
   shortRow .setMove 0x00 0x1E 0x04 0x01,
   shortRow .setMaxTorque 0x00 0x23 0x01 0x01,
   shortRow .setTorque 0x00 0x24 0x01 0x01,
   shortRow .setPID 0x00 0x26 0x01 0x01,
   longRow .torqueBatch 0x24 0x02,
   longRow .moveBatch 0x1E 0x05]

/-- The two format rows, tried last (R98), the one with the longer mask first (log 9). -/
def formatRows : List OpRow :=
  [{ name := .buildLong, pattern := [0xFA, 0xAF, 0, 0, 0, 0, 0],
     mask := [0xFF, 0xFF, 0xFF, 0xFF, 0, 0, 0] },
   { name := .buildShort, pattern := [0xFA, 0xAF, 0, 0, 0, 0, 0],
     mask := [0xFF, 0xFF, 0, 0, 0, 0, 0] }]

/-- R98's membership test on the first seven bytes. -/
def OpRow.claims (row : OpRow) (head : List Byte) : Bool :=
  decide (List.zipWith (· &&& ·) head row.mask = row.pattern)

/-- The row a frame belongs to: the specific rows first, then the format rows (R98). -/
def classify (head : List Byte) : Option RowName :=
  ((specificRows ++ formatRows).find? (·.claims head)).map (·.name)

/-- Payload length N of a frame of the row (R44, R89): `length` short, `length × count` long. -/
def payloadLength (row : RowName) (length count : Byte) : Nat :=
  match row with
  | .torqueBatch | .moveBatch | .buildLong => length.toNat * count.toNat
  | _ => length.toNat

/-- Why bytes are no command frame. -/
inductive DecodeError where
  /-- The bytes end before the frame does. -/
  | truncated
  /-- The first two bytes are not `FA AF` (R38). -/
  | badHeader
  /-- A SHORT frame whose count byte is not the one the count rule gives (R86, R132): no builder makes it. -/
  | badCount
  /-- The payload does not have the shape of its row's operands. -/
  | badPayload
  deriving DecidableEq, Repr

/-- The flat list of a torque batch payload, entry by entry (R88). -/
def torqueScalars : List Byte → Option (List Int)
  | [] => some []
  | id :: mode :: rest => (torqueScalars rest).map ([dec8 id, dec8 mode] ++ ·)
  | [_] => none

/-- The flat list of a move batch payload, entry by entry (R88). -/
def moveScalars : List Byte → Option (List Int)
  | [] => some []
  | id :: posLo :: posHi :: timeLo :: timeHi :: rest =>
    (moveScalars rest).map ([dec8 id, dec16S posLo posHi, dec16U timeLo timeHi] ++ ·)
  | _ => none

/-- The instruction of a row with the given header bytes and payload: each operand from the offset the
row's fields give it (R95, opcode_table.json). Positions are signed, every other operand unsigned
(R119). -/
def operandsOf (row : RowName) (id flags address length count : Byte) (payload : List Byte) :
    Except DecodeError Instr :=
  match row, payload with
  | .writeFlashRom, [] => .ok (.writeFlashRom (dec8 id))
  | .reboot, [] => .ok (.reboot (dec8 id))
  | .factoryReset, [] => .ok (.factoryReset (dec8 id))
  | .setId, [b] => .ok (.setId (dec8 id) (dec8 b))
  | .setReverse, [b] => .ok (.setReverse (dec8 id) (dec8 b))
  | .setBaudrate, [b] => .ok (.setBaudrate (dec8 id) (dec8 b))
  | .setReturnDelay, [b] => .ok (.setReturnDelay (dec8 id) (dec8 b))
  | .setAngleLimit, [a, b, c, d] => .ok (.setAngleLimit (dec8 id) (dec16U a b) (dec16U c d))
  | .setTempLimit, [a, b] => .ok (.setTempLimit (dec8 id) (dec16U a b))
  | .setCompliance, [a, b, c, d, lo, hi] =>
    .ok (.setCompliance (dec8 id) (dec8 a) (dec8 b) (dec8 c) (dec8 d) (dec16U lo hi))
  | .setMove, [a, b, c, d] => .ok (.setMove (dec8 id) (dec16S a b) (dec16U c d))
  | .setMaxTorque, [b] => .ok (.setMaxTorque (dec8 id) (dec8 b))
  | .setTorque, [b] => .ok (.setTorque (dec8 id) (dec8 b))
  | .setPID, [b] => .ok (.setPID (dec8 id) (dec8 b))
  | .torqueBatch, bytes =>
    match torqueScalars bytes with
    | some list => .ok (.torqueBatch list)
    | none => .error .badPayload
  | .moveBatch, bytes =>
    match moveScalars bytes with
    | some list => .ok (.moveBatch list)
    | none => .error .badPayload
  | .buildShort, bytes =>
    if count = countRule flags then .ok (.buildShort (dec8 id) flags address length bytes)
    else .error .badCount
  | .buildLong, bytes => .ok (.buildLong address length count bytes)
  | _, _ => .error .badPayload

/-- Read one command frame from the front of a byte stream (R89): the instruction and the bytes after its
frame. The row is told by bytes 0 to 6 alone (R98), so the trailing checksum byte is passed over and not
compared (log 8). -/
def decode (bytes : List Byte) : Except DecodeError (Instr × List Byte) :=
  match bytes with
  | h0 :: h1 :: id :: flags :: address :: length :: count :: rest =>
    match classify [h0, h1, id, flags, address, length, count] with
    | none => .error .badHeader
    | some row =>
      let n := payloadLength row length count
      if rest.length < n + 1 then .error .truncated
      else
        match operandsOf row id flags address length count (rest.take n) with
        | .ok i => .ok (i, rest.drop (n + 1))
        | .error e => .error e
  | _ => .error .truncated

/-- Header, the bytes from offset 2 to the end of the payload, and their XOR (R45, R85). -/
def framed (body : List Byte) : List Byte := [0xFA, 0xAF] ++ body ++ [xorBytes body]

/-- Format SHORT (R86). -/
def shortFrame (id : Int) (flags address length count : Byte) (payload : List Byte) : List Byte :=
  framed ([lo8 id, flags, address, length, count] ++ payload)

/-- Format LONG (R87). -/
def longFrame (address length count : Byte) (payload : List Byte) : List Byte :=
  framed ([0x00, 0x00, address, length, count] ++ payload)

/-- Payload of a torque batch by R88's entry layout. -/
def torquePayload : List Int → List Byte
  | id :: mode :: rest => lo8 id :: lo8 mode :: torquePayload rest
  | _ => []

/-- Payload of a move batch by R88's entry layout. -/
def movePayload : List Int → List Byte
  | id :: pos :: time :: rest => (lo8 id :: (enc16 pos ++ enc16 time)) ++ movePayload rest
  | _ => []

/-- The frame of an instruction, from the table of R97 and the payload column of R95. -/
def encode : Instr → List Byte
  | .writeFlashRom id => shortFrame id 0x40 0xFF 0x00 0x00 []
  | .reboot id => shortFrame id 0x20 0xFF 0x00 0x00 []
  | .factoryReset id => shortFrame id 0x10 0xFF 0x00 0x00 []
  | .setId id newId => shortFrame id 0x00 0x04 0x01 0x01 (enc8 newId)
  | .setReverse id rev => shortFrame id 0x00 0x05 0x01 0x01 (enc8 rev)
  | .setBaudrate id index => shortFrame id 0x00 0x06 0x01 0x01 (enc8 index)
  | .setReturnDelay id delay => shortFrame id 0x00 0x07 0x01 0x01 (enc8 delay)
  | .setAngleLimit id cwLimit ccwLimit =>
    shortFrame id 0x00 0x08 0x04 0x01 (enc16 cwLimit ++ enc16 ccwLimit)
  | .setTempLimit id limit => shortFrame id 0x00 0x0E 0x02 0x01 (enc16 limit)
  | .setCompliance id cwMargin ccwMargin cwSlope ccwSlope punch =>
    shortFrame id 0x00 0x18 0x06 0x01
      (enc8 cwMargin ++ enc8 ccwMargin ++ enc8 cwSlope ++ enc8 ccwSlope ++ enc16 punch)
  | .setMove id pos time => shortFrame id 0x00 0x1E 0x04 0x01 (enc16 pos ++ enc16 time)
  | .setMaxTorque id pct => shortFrame id 0x00 0x23 0x01 0x01 (enc8 pct)
  | .setTorque id mode => shortFrame id 0x00 0x24 0x01 0x01 (enc8 mode)
  | .setPID id coef => shortFrame id 0x00 0x26 0x01 0x01 (enc8 coef)
  | .torqueBatch list =>
    longFrame 0x24 0x02 (BitVec.ofNat 8 (list.length / 2)) (torquePayload list)
  | .moveBatch list => longFrame 0x1E 0x05 (BitVec.ofNat 8 (list.length / 3)) (movePayload list)
  | .buildShort id flags address width data =>
    shortFrame id flags address width (countRule flags) data
  | .buildLong address width count data => longFrame address width count data

/-- The bytes of a table word, least significant byte first: byte 0 is bits 7..0. -/
def bytesLowFirst (nbits w : Nat) : List Byte :=
  (List.range ((nbits + 7) / 8)).map fun k => BitVec.ofNat 8 (w >>> (8 * k))

/-- Do the bytes start with the frame header? -/
def startsWithHeader : List Byte → Bool
  | h0 :: h1 :: _ => decide (h0 = 0xFA ∧ h1 = 0xAF)
  | _ => false

/-- A table word in transmission order: byte 0 in the low bits; where that does not start with the header,
byte 0 in the high bits, which is how R98 prints match and mask (log 10). -/
def bytesInOrder (nbits w : Nat) : List Byte :=
  let low := bytesLowFirst nbits w
  if startsWithHeader low then low
  else if startsWithHeader low.reverse then low.reverse
  else low

/-- Zero bytes for what the table gives no bits: the payload and the checksum byte of the frame whose header
the bytes hold. -/
def padFrame (bytes : List Byte) : List Byte :=
  match bytes with
  | h0 :: h1 :: id :: flags :: address :: length :: count :: rest =>
    match classify [h0, h1, id, flags, address, length, count] with
    | some row =>
      bytes ++ List.replicate (payloadLength row length count + 1 - rest.length) 0
    | none => bytes
  | _ => bytes

/-- The stored bytes of an opcode-table word, missing bits zero. -/
def tableBytes (nbits w : Nat) : List Byte := padFrame (bytesInOrder nbits w)

/-- The instruction that bytes holding exactly one frame stand for. -/
def decodeWhole (bytes : List Byte) : Option Instr :=
  match decode bytes with
  | .ok (i, []) => some i
  | _ => none

/-- The instruction the decoder reads from an opcode-table word. -/
def decodeTableWord (nbits w : Nat) : Option Instr := decodeWhole (tableBytes nbits w)

end Sys2Proof
end

