-- ==== Sys2Proof/Machine/Constants.lean ====
section
/-! DEFINITION. The fixed constants of R12 and the default operand values of R52. -/

namespace Sys2Proof.Machine

/-- `HEADER` (R38): the two bytes that start every frame. -/
def header0 : Byte := 0xFA
def header1 : Byte := 0xAF

/-- `LONG_ID` (R39, R62): the id byte of every long frame. -/
def longId : Byte := 0x00

/-- `SENTINEL_ADDR` (R41): the address of the flag-only operations. -/
def sentinelAddr : Byte := 0xFF

/-- `ID_MIN`, `ID_MAX` (R62): the valid servo ids of a short frame. -/
def idMin : Int := 1
def idMax : Int := 127

/-- Constants of the torque batch (R12, R174). -/
def torqueBatchAddr : Byte := 0x24
def torqueBatchWidth : Byte := 2
def torqueBatchArity : Nat := 2

/-- Constants of the move batch (R12, R177). -/
def moveBatchAddr : Byte := 0x1E
def moveBatchWidth : Byte := 5
def moveBatchArity : Nat := 3

/-- Default operand values a caller may pass (R52); no command takes one by itself. -/
def defaultCwLimit : Int := 0x05DC
def defaultCcwLimit : Int := 0xFA24
def defaultMargin : Int := 0x02
def defaultSlope : Int := 0x01
def defaultPunch : Int := 0x0008
def defaultTempLimit : Int := 0x0037
def defaultMaxTorque : Int := 0x64
def defaultPID : Int := 0x64

end Sys2Proof.Machine
end

