-- ==== Sys2Proof/Machine/Bounds.lean ====
section
/-! DEFINITION. The bounds that `RANGE_POLICY = reject` enforces (R192), and how a flat batch list is cut
into entries (R47, R227). -/

namespace Sys2Proof.Machine

/-- A closed range (R192). -/
def inRange (lo hi v : Int) : Bool := decide (lo ≤ v) && decide (v ≤ hi)

/-- A servo id: `id`, `id_k`, `newId` (R192). -/
def idInBounds (v : Int) : Bool := inRange idMin idMax v

/-- An unsigned byte (R192). -/
def byteInBounds (v : Int) : Bool := inRange 0 255 v

/-- An unsigned 16-bit value (R192). -/
def wordInBounds (v : Int) : Bool := inRange 0 65535 v

/-- A torque mode (R192). -/
def modeInBounds (v : Int) : Bool := inRange 0 2 v

/-- A position (R192). -/
def posInBounds (v : Int) : Bool := inRange (-1500) 1500 v

/-- A duration (R192). -/
def timeInBounds (v : Int) : Bool := inRange 0 16383 v

/-- The entries of a flat torque list are all in bounds (R192). -/
def torqueListInBounds : List Int → Bool
  | id :: mode :: rest => idInBounds id && modeInBounds mode && torqueListInBounds rest
  | _ => true

/-- The entries of a flat move list are all in bounds (R192). -/
def moveListInBounds : List Int → Bool
  | id :: pos :: time :: rest =>
    idInBounds id && posInBounds pos && timeInBounds time && moveListInBounds rest
  | _ => true

/-- The entry count is 1 to `MAX_BATCH` (R192). -/
def countInBounds (maxBatch n : Nat) : Bool := decide (1 ≤ n) && decide (n ≤ maxBatch)

/-- `InBounds` (R192): every operand of the command lies in its closed range. The two builder functions are
not commands and have no bounds (R135). -/
def inBounds (maxBatch : Nat) : Instr → Bool
  | .writeFlashRom id => idInBounds id
  | .reboot id => idInBounds id
  | .factoryReset id => idInBounds id
  | .setId id newId => idInBounds id && idInBounds newId
  | .setReverse id rev => idInBounds id && byteInBounds rev
  | .setBaudrate id index => idInBounds id && byteInBounds index
  | .setReturnDelay id delay => idInBounds id && byteInBounds delay
  | .setAngleLimit id cwLimit ccwLimit =>
    idInBounds id && wordInBounds cwLimit && wordInBounds ccwLimit
  | .setTempLimit id limit => idInBounds id && wordInBounds limit
  | .setCompliance id cwMargin ccwMargin cwSlope ccwSlope punch =>
    idInBounds id && byteInBounds cwMargin && byteInBounds ccwMargin && byteInBounds cwSlope &&
      byteInBounds ccwSlope && wordInBounds punch
  | .setMove id pos time => idInBounds id && posInBounds pos && timeInBounds time
  | .setMaxTorque id pct => idInBounds id && byteInBounds pct
  | .setTorque id mode => idInBounds id && modeInBounds mode
  | .setPID id coef => idInBounds id && byteInBounds coef
  | .torqueBatch list =>
    countInBounds maxBatch (list.length / torqueBatchArity) && torqueListInBounds list
  | .moveBatch list => countInBounds maxBatch (list.length / moveBatchArity) && moveListInBounds list
  | .buildShort _ _ _ _ _ => true
  | .buildLong _ _ _ _ => true

/-- The sixteen constructors of the type `Command` (R25); the builder functions are not among them
(R26). -/
def isCommand : Instr → Bool
  | .buildShort _ _ _ _ _ => false
  | .buildLong _ _ _ _ => false
  | _ => true

end Sys2Proof.Machine
end

