-- ==== Sys2Proof/Config.lean ====
section
/-! DEFINITION. The parameters of the block (R12, R13, R208) and the values the spec leaves free
(R209, U10, U11). The fixed constants of R12 stand in Machine/Constants.lean. -/

namespace Sys2Proof

/-- `RANGE_POLICY` (R13): what happens to an operand outside the protocol-valid bounds. -/
inductive RangePolicy where
  /-- The operand is reduced to the low bits of its field (the default). -/
  | truncate
  /-- The command ends in `OutOfRangeParameter`. -/
  | reject
  deriving DecidableEq, Repr

/-- `LINK_CONFIG` (R12, R208, D25): the part of the transport's configuration that the caller chooses.
The block never reads it. -/
structure LinkConfig where
  portIdentifier : Nat
  baudRate       : Nat
  readTimeout    : Nat
  deriving DecidableEq, Repr

/-- Parity settings of the character format; R208 fixes `none`. -/
inductive Parity where
  | none
  | even
  | odd
  deriving DecidableEq, Repr

/-- What `open(configuration)` hands to the transport (R205, R208, R219). -/
structure TransportConfig where
  chosen   : LinkConfig
  parity   : Parity
  stopBits : Nat
  dataBits : Nat
  deriving DecidableEq, Repr

/-- FREE VALUE (R209, U10; log 4): whether the transport accepts its k-th call that can fail, where the
state scripts no answer. No body: nothing can be proved of it. -/
opaque Config.transportAccepts : Nat → Bool

/-- FREE VALUE (R74, U11; log 12): how many bytes of the k-th write reached the link when that write
failed. No body: nothing can be proved of it. -/
opaque Config.failedPrefix : Nat → Nat

end Sys2Proof
end

