-- ==== Sys2Proof/Machine/State.lean ====
section
/-! DEFINITION. The state of the block and of the three interfaces around it (R11, R30, R50), its reset
value (R51), and the reasons a step can stop. -/

namespace Sys2Proof.Machine

/-- The external transport connection (R50). -/
inductive Link where
  | closed
  | opened
  deriving DecidableEq, Repr

/-- The closed set of results (R185). An error carries its kind and nothing else (R190). -/
inductive Result where
  | ok
  | transportUnavailable
  | writeFailure
  | malformedBatchInput
  | outOfRangeParameter
  deriving DecidableEq, Repr

/-- A Frame with the fields of R34; `header` is its two bytes. -/
structure Frame where
  header0   : Byte
  header1   : Byte
  servoId   : Byte
  flags     : Byte
  address   : Byte
  length    : Byte
  count     : Byte
  payload   : List Byte
  checksum  : Byte
  deriving DecidableEq, Repr

/-- A Command Descriptor (R35). -/
structure Descriptor where
  flags        : Byte
  address      : Byte
  payloadWidth : Byte
  deriving DecidableEq, Repr

/-- One servo's contribution to a torque batch (R47). -/
structure TorqueEntry where
  id   : Int
  mode : Int
  deriving DecidableEq, Repr

/-- One servo's contribution to a move batch (R47). -/
structure MoveEntry where
  id   : Int
  pos  : Int
  time : Int
  deriving DecidableEq, Repr

/-- The outcome of a transport call that can fail (R205): in full, or an explicit error. A transport that
drops bytes without an error is not modelled (R207). -/
inductive TransportAnswer where
  | accepted
  | failed
  deriving DecidableEq, Repr

/-- The four calls of the Transport Adapter (R205), with the answer where the call has one. -/
inductive TransportCall where
  | openLink (config : TransportConfig) (answer : TransportAnswer)
  | write (bytes : List Byte) (answer : TransportAnswer)
  | flush
  | close
  deriving DecidableEq, Repr

/-- What the caller does next (R205, R218, R223, R224). -/
inductive CallerAction where
  /-- `open(configuration)`. -/
  | openLink (config : LinkConfig)
  /-- `close()`. -/
  | closeLink
  /-- One command on the command port. -/
  | command (i : Instr)
  /-- Two commands presented at once (R224). -/
  | together (i j : Instr)
  /-- One command on the command port, given by its frame bytes: the model's own reading of the open
  `CMD_ENCODING` (R12, log 1). -/
  | encoded (bytes : List Byte)
  /-- No use of a port: one of the two builder functions is evaluated by itself, as the spec's own tests of
  them do (R26, log 2). -/
  | evaluate (i : Instr)
  deriving DecidableEq, Repr

/-- The machine. The spec's part is what R30, R50 and R11 name; `answers` and `asked` are the model's own
fields for the free inputs of R209 (log 4). -/
structure State where
  /-- `RANGE_POLICY` (R13), fixed before the first command. -/
  policy     : RangePolicy
  /-- `MAX_BATCH` (R12), 1 to 255, fixed before the first command. -/
  maxBatch   : Nat
  /-- The external connection (R50). -/
  link       : Link
  /-- The command port: the caller's coming actions in issue order (R11, R76, log 6). -/
  caller     : List CallerAction
  /-- The transient Frame the latest step constructed (R30, R34); every step overwrites it and no command
  reads it (R48, R49). -/
  frame      : Option Frame
  /-- What the result port carries after the latest step (R11, R185); every step overwrites it and no
  command reads it (R33). -/
  resultPort : Option Result
  /-- The calls made to the transport, oldest first (R205, R206): what the frame port has carried. -/
  calls      : List TransportCall
  /-- The transport's coming answers, where they are scripted (R209). -/
  answers    : List TransportAnswer
  /-- How many calls the transport has answered. -/
  asked      : Nat
  deriving DecidableEq, Repr

/-- After reset (R51, R215): the default parameters, the link closed, no frame, no result, nothing presented
and nothing written. -/
def State.reset : State where
  policy     := .truncate
  maxBatch   := 255
  link       := .closed
  caller     := []
  frame      := none
  resultPort := none
  calls      := []
  answers    := []
  asked      := 0

/-- Why the machine would stop with a fault. Nobody raises one: the spec's errors are results of the call
(R185, R196), after which the block takes the next command (R198). Safe: there is nothing to raise
(log 14). -/
inductive Fault where
  deriving DecidableEq, Repr

/-- Why a step has no meaning: the spec's `refuse` (R18). Each is safe: nothing can be proved of what the
block does there. -/
inductive Refusal where
  /-- Raised by exec's arm of an instruction without a meaning (none is left). Safe. -/
  | notModelled (mnemonic : String)
  /-- Raised by every command, by `emit` and by `close` while the link is not open (R206, R218). Safe. -/
  | linkNotOpen
  /-- Raised by an `open` of an open link: R218 and R220 give it no place (log 6). Safe. -/
  | linkAlreadyOpen
  /-- Raised by the step when two commands are presented at once (R224). Safe. -/
  | concurrentCommands
  /-- Raised by BUILD_SHORT and BUILD_LONG when the data's length is not what width and count say
  (R140). Safe. -/
  | builderDomain
  /-- Raised by the step when a builder function is presented on the command port, as a value or as bytes
  (R25, R26). Safe. -/
  | notACommand
  /-- Raised by the step when a command is to be evaluated as a builder function (R26, log 2). Safe. -/
  | notAFunction
  /-- Raised by the step when encoded bytes are not exactly one frame (log 1). Safe. -/
  | undecodable
  deriving DecidableEq, Repr

end Sys2Proof.Machine
end

