-- ==== Sys2Proof/Machine/Builder.lean ====
section
/-! DEFINITION. The Packet Builder: the two construction contracts (R130, R137) and the wire format of a
Frame (R85). They are functions inside the block, not commands (R26). -/

namespace Sys2Proof.Machine

/-- The frame as the wire carries it, by increasing offset (R66, R85). -/
def Frame.bytes (f : Frame) : List Byte :=
  [f.header0, f.header1, f.servoId, f.flags, f.address, f.length, f.count] ++ f.payload ++ [f.checksum]

/-- The body CHECKSUM is taken over: offsets 0 to 6 + N (R110). -/
def Frame.body (f : Frame) : List Byte :=
  [f.header0, f.header1, f.servoId, f.flags, f.address, f.length, f.count] ++ f.payload

/-- The checksum computed last, over the body, and appended (R130). `none` where CHECKSUM has no value
(R111); a body has at least 7 bytes, so that does not arise. -/
def Frame.sealed (f : Frame) : Option Frame :=
  (Sys2Proof.Machine.checksum f.body).map fun c => { f with checksum := c }

/-- `BUILD_SHORT(id, flags, address, width, data)` (R130): `none` is `refuse` (R140). -/
def buildShort (id : Int) (flags address width : Byte) (data : List Byte) : Option Frame :=
  if data.length = width.toNat then
    Frame.sealed
      { header0 := header0, header1 := header1, servoId := lo8 id, flags := flags, address := address,
        length := width, count := countRule flags, payload := data, checksum := 0 }
  else none

/-- `BUILD_LONG(address, width, count, data)` (R137): the count literal, no zeroing rule; the product exact.
`none` is `refuse` (R140). -/
def buildLong (address width count : Byte) (data : List Byte) : Option Frame :=
  if data.length = width.toNat * count.toNat then
    Frame.sealed
      { header0 := header0, header1 := header1, servoId := longId, flags := 0x00, address := address,
        length := width, count := count, payload := data, checksum := 0 }
  else none

end Sys2Proof.Machine
end

