-- ==== Sys2Proof/Machine/Ops.lean ====
section
/-! DEFINITION. The operations every command shares: ending in an error (R196), handing a frame to the
transport (R206), the two command paths (R149, R170), and what the caller does to the link (R218). -/

namespace Sys2Proof.Machine

/-- The outcomes of a step of this machine. -/
abbrev Outcome := Host.Outcome State Fault Refusal

/-- The ports carry nothing and no frame exists: the block between commands (R33, R48, R212). -/
def idle (s : State) : State := { s with frame := none, resultPort := none }

/-- `raise E` (R196), this block's way of taking an exception: the result port carries `E`, no frame, nothing
else changes; there is no handler, no saved context and nothing to return from (R198). -/
def raise (e : Result) (s : State) : State := { s with frame := none, resultPort := some e }

/-- The transport's answer to its next call that can fail: the scripted one, else free (R209, log 4). -/
def nextAnswer (s : State) : TransportAnswer :=
  match s.answers with
  | a :: _ => a
  | [] => if Config.transportAccepts s.asked then .accepted else .failed

/-- The answer is used up. -/
def answered (s : State) : State := { s with answers := s.answers.tail, asked := s.asked + 1 }

/-- The calls `emit` makes: one write of the whole frame, then a flush if the write was accepted (R206). -/
def emitCalls (bytes : List Byte) : TransportAnswer → List TransportCall
  | .accepted => [.write bytes .accepted, .flush]
  | .failed => [.write bytes .failed]

/-- The result of `emit` (R185, R187, R206). -/
def emitResult : TransportAnswer → Result
  | .accepted => .ok
  | .failed => .writeFailure

/-- The state after the frame was handed to the transport and answered (R206). -/
def handedOver (f : Frame) (s : State) : State :=
  { answered s with
    frame := some f
    resultPort := some (emitResult (nextAnswer s))
    calls := s.calls ++ emitCalls f.bytes (nextAnswer s) }

/-- `emit(f)` (R206): the block's only output action. -/
def emit (f : Frame) (s : State) : Outcome :=
  if s.link = .opened then .next (handedOver f s) else .refused .linkNotOpen

/-- Hand over what a builder gave; `none` is the builder's `refuse` (R140). -/
def emitBuilt (built : Option Frame) (s : State) : Outcome :=
  match built with
  | some f => emit f s
  | none => .refused .builderDomain

/-- Does `RANGE_POLICY = reject` end the command (R149, R170, R189)? -/
def rejects (i : Instr) (s : State) : Bool :=
  decide (s.policy = .reject) && !inBounds s.maxBatch i

/-- The common path of the catalog operations (R149); a command issued while the link is not open is refused
before any check (R218, log 3). -/
def catalogCommand (i : Instr) (d : Descriptor) (id : Int) (payload : List Byte) (s : State) : Outcome :=
  if s.link ≠ .opened then .refused .linkNotOpen
  else if rejects i s then .next (raise .outOfRangeParameter s)
  else emitBuilt (buildShort id d.flags d.address d.payloadWidth payload) s

/-- The common path of the batch operations (R170), its checks in the order of R194; `data` is the flattened
list. -/
def batchCommand (i : Instr) (address width : Byte) (arity : Nat) (list : List Int) (data : List Byte)
    (s : State) : Outcome :=
  if s.link ≠ .opened then .refused .linkNotOpen
  else if list.length % arity ≠ 0 then .next (raise .malformedBatchInput s)
  else if list.length / arity > s.maxBatch then .next (raise .outOfRangeParameter s)
  else if rejects i s then .next (raise .outOfRangeParameter s)
  else emitBuilt (buildLong address width (BitVec.ofNat 8 (list.length / arity)) data) s

/-- A builder function evaluated by itself (R26, log 2): the frame is constructed, nothing is handed over and
the result port stays empty; `none` is its `refuse` (R140). -/
def evaluateBuilder (built : Option Frame) (s : State) : Outcome :=
  match built with
  | some f => .next { s with frame := some f, resultPort := none }
  | none => .refused .builderDomain

/-- The configuration of `open`: the caller's choice with the fixed 8 data bits, no parity, 1 stop bit
(R208, R219). -/
def transportConfig (config : LinkConfig) : TransportConfig :=
  { chosen := config, parity := .none, stopBits := 1, dataBits := 8 }

/-- The link after `open` was answered: a failed open leaves it closed (R218). -/
def openedLink : TransportAnswer → Link
  | .accepted => .opened
  | .failed => .closed

/-- What the caller receives from `open` besides the connection (R186, R218, log 7). -/
def openResult : TransportAnswer → Option Result
  | .accepted => none
  | .failed => some .transportUnavailable

/-- The caller opens the link (R218). -/
def openTransport (config : LinkConfig) (s : State) : Outcome :=
  if s.link = .closed then
    .next
      { answered s with
        link := openedLink (nextAnswer s)
        frame := none
        resultPort := openResult (nextAnswer s)
        calls := s.calls ++ [.openLink (transportConfig config) (nextAnswer s)] }
  else .refused .linkAlreadyOpen

/-- The caller closes the link (R205, R218); `close()` has no result. -/
def closeTransport (s : State) : Outcome :=
  if s.link = .opened then
    .next { idle s with link := .closed, calls := s.calls ++ [.close] }
  else .refused .linkNotOpen

/-- The bytes that reached the link, the calls counted from `k`: an accepted write in full, of a failed write
an unknown prefix (R74, U11, log 12). -/
def receivedBytes (k : Nat) : List TransportCall → List Byte
  | [] => []
  | .write bytes .accepted :: rest => bytes ++ receivedBytes (k + 1) rest
  | .write bytes .failed :: rest => bytes.take (Config.failedPrefix k) ++ receivedBytes (k + 1) rest
  | .openLink _ _ :: rest => receivedBytes k rest
  | .flush :: rest => receivedBytes k rest
  | .close :: rest => receivedBytes k rest

/-- The result codes of R185 (D12). -/
def resultCode : Result → Nat
  | .ok => 0
  | .transportUnavailable => 1
  | .writeFailure => 2
  | .malformedBatchInput => 3
  | .outOfRangeParameter => 4

end Sys2Proof.Machine
end

