-- ==== Sys2Proof/Machine/Batch.lean ====
section
/-! DEFINITION. The Batch Encoder and the two batch operations (R170 to R181). -/

namespace Sys2Proof.Machine

/-- The flat torque list cut every two elements from the start (R47, R227). -/
def torqueEntries : List Int → List TorqueEntry
  | id :: mode :: rest => { id, mode } :: torqueEntries rest
  | _ => []

/-- The flat move list cut every three elements from the start (R47, R227). -/
def moveEntries : List Int → List MoveEntry
  | id :: pos :: time :: rest => { id, pos, time } :: moveEntries rest
  | _ => []

/-- `FLATTEN_TORQUE(list)` (R175): each entry `[id, torqueByte]`, in list order. -/
def flattenTorque (list : List Int) : List Byte :=
  (torqueEntries list).flatMap fun e => enc8 e.id ++ enc8 e.mode

/-- `FLATTEN_MOVE(list)` (R178): each entry `[id, posLo, posHi, timeLo, timeHi]`, in list order. -/
def flattenMove (list : List Int) : List Byte :=
  (moveEntries list).flatMap fun e => enc8 e.id ++ enc16 e.pos ++ enc16 e.time

/-- `torqueBatch(list)` (R174). -/
def execTorqueBatch (list : List Int) (s : State) : Outcome :=
  batchCommand (.torqueBatch list) torqueBatchAddr torqueBatchWidth torqueBatchArity list
    (flattenTorque list) s

/-- `moveBatch(list)` (R177). -/
def execMoveBatch (list : List Int) (s : State) : Outcome :=
  batchCommand (.moveBatch list) moveBatchAddr moveBatchWidth moveBatchArity list (flattenMove list) s

end Sys2Proof.Machine
end

