-- ==== Sys2Proof/Machine/Catalog.lean ====
section
/-! DEFINITION. The Command Catalog (R35 to R37) and the fourteen catalog operations (R150 to R163): each is
the common path R149 with its descriptor and its payload. -/

namespace Sys2Proof.Machine

/-- The operation names of the catalog, in its order (R36). -/
inductive CatalogOp where
  | writeFlashRom | reboot | factoryReset | setId | setReverse | setBaudrate | setReturnDelay
  | setAngleLimit | setTempLimit | setCompliance | setMove | setMaxTorque | setTorque | setPID
  deriving DecidableEq, Repr

/-- The catalog (R36): a constant table; a lookup cannot fail (R37). -/
def catalog : CatalogOp → Descriptor
  | .writeFlashRom  => { flags := 0x40, address := sentinelAddr, payloadWidth := 0 }
  | .reboot         => { flags := 0x20, address := sentinelAddr, payloadWidth := 0 }
  | .factoryReset   => { flags := 0x10, address := sentinelAddr, payloadWidth := 0 }
  | .setId          => { flags := 0x00, address := 0x04, payloadWidth := 1 }
  | .setReverse     => { flags := 0x00, address := 0x05, payloadWidth := 1 }
  | .setBaudrate    => { flags := 0x00, address := 0x06, payloadWidth := 1 }
  | .setReturnDelay => { flags := 0x00, address := 0x07, payloadWidth := 1 }
  | .setAngleLimit  => { flags := 0x00, address := 0x08, payloadWidth := 4 }
  | .setTempLimit   => { flags := 0x00, address := 0x0E, payloadWidth := 2 }
  | .setCompliance  => { flags := 0x00, address := 0x18, payloadWidth := 6 }
  | .setMove        => { flags := 0x00, address := 0x1E, payloadWidth := 4 }
  | .setMaxTorque   => { flags := 0x00, address := 0x23, payloadWidth := 1 }
  | .setTorque      => { flags := 0x00, address := 0x24, payloadWidth := 1 }
  | .setPID         => { flags := 0x00, address := 0x26, payloadWidth := 1 }

/-- `writeFlashRom(id)` (R150). -/
def execWriteFlashRom (id : Int) (s : State) : Outcome :=
  catalogCommand (.writeFlashRom id) (catalog .writeFlashRom) id [] s

/-- `reboot(id)` (R151). -/
def execReboot (id : Int) (s : State) : Outcome :=
  catalogCommand (.reboot id) (catalog .reboot) id [] s

/-- `factoryReset(id)` (R152). -/
def execFactoryReset (id : Int) (s : State) : Outcome :=
  catalogCommand (.factoryReset id) (catalog .factoryReset) id [] s

/-- `setId(id, newId)` (R153). -/
def execSetId (id newId : Int) (s : State) : Outcome :=
  catalogCommand (.setId id newId) (catalog .setId) id (enc8 newId) s

/-- `setReverse(id, rev)` (R154). -/
def execSetReverse (id rev : Int) (s : State) : Outcome :=
  catalogCommand (.setReverse id rev) (catalog .setReverse) id (enc8 rev) s

/-- `setBaudrate(id, index)` (R155). -/
def execSetBaudrate (id index : Int) (s : State) : Outcome :=
  catalogCommand (.setBaudrate id index) (catalog .setBaudrate) id (enc8 index) s

/-- `setReturnDelay(id, delay)` (R156). -/
def execSetReturnDelay (id delay : Int) (s : State) : Outcome :=
  catalogCommand (.setReturnDelay id delay) (catalog .setReturnDelay) id (enc8 delay) s

/-- `setAngleLimit(id, cwLimit, ccwLimit)` (R157). -/
def execSetAngleLimit (id cwLimit ccwLimit : Int) (s : State) : Outcome :=
  catalogCommand (.setAngleLimit id cwLimit ccwLimit) (catalog .setAngleLimit) id
    (enc16 cwLimit ++ enc16 ccwLimit) s

/-- `setTempLimit(id, limit)` (R158). -/
def execSetTempLimit (id limit : Int) (s : State) : Outcome :=
  catalogCommand (.setTempLimit id limit) (catalog .setTempLimit) id (enc16 limit) s

/-- `setCompliance(id, cwMargin, ccwMargin, cwSlope, ccwSlope, punch)` (R159). -/
def execSetCompliance (id cwMargin ccwMargin cwSlope ccwSlope punch : Int) (s : State) : Outcome :=
  catalogCommand (.setCompliance id cwMargin ccwMargin cwSlope ccwSlope punch) (catalog .setCompliance)
    id (enc8 cwMargin ++ enc8 ccwMargin ++ enc8 cwSlope ++ enc8 ccwSlope ++ enc16 punch) s

/-- `setMove(id, pos, time)` (R160). -/
def execSetMove (id pos time : Int) (s : State) : Outcome :=
  catalogCommand (.setMove id pos time) (catalog .setMove) id (enc16 pos ++ enc16 time) s

/-- `setMaxTorque(id, pct)` (R161). -/
def execSetMaxTorque (id pct : Int) (s : State) : Outcome :=
  catalogCommand (.setMaxTorque id pct) (catalog .setMaxTorque) id (enc8 pct) s

/-- `setTorque(id, mode)` (R162). -/
def execSetTorque (id mode : Int) (s : State) : Outcome :=
  catalogCommand (.setTorque id mode) (catalog .setTorque) id (enc8 mode) s

/-- `setPID(id, coef)` (R163). -/
def execSetPID (id coef : Int) (s : State) : Outcome :=
  catalogCommand (.setPID id coef) (catalog .setPID) id (enc8 coef) s

end Sys2Proof.Machine
end

