-- ==== Sys2Proof/Machine/Functions.lean ====
section
/-! DEFINITION. The two format rows of the opcode table: the builder functions evaluated by themselves
(R26, R98, R130, R137, log 2). -/

namespace Sys2Proof.Machine

/-- `BUILD_SHORT(id, flags, address, width, data)` (R130). -/
def execBuildShort (id : Int) (flags address width : Byte) (data : List Byte) (s : State) : Outcome :=
  evaluateBuilder (buildShort id flags address width data) s

/-- `BUILD_LONG(address, width, count, data)` (R137). -/
def execBuildLong (address width count : Byte) (data : List Byte) (s : State) : Outcome :=
  evaluateBuilder (buildLong address width count data) s

end Sys2Proof.Machine
end

