-- ==== Sys2Proof/Machine/Dispatch.lean ====
section
/-! DEFINITION. One arm per constructor of Instr. -/

namespace Sys2Proof.Machine

def exec (i : Instr) (s : State) : Host.Outcome State Fault Refusal :=
  match i with
  | .writeFlashRom id => Sys2Proof.Machine.execWriteFlashRom id s
  | .reboot id => Sys2Proof.Machine.execReboot id s
  | .factoryReset id => Sys2Proof.Machine.execFactoryReset id s
  | .setId id newId => Sys2Proof.Machine.execSetId id newId s
  | .setReverse id rev => Sys2Proof.Machine.execSetReverse id rev s
  | .setBaudrate id index => Sys2Proof.Machine.execSetBaudrate id index s
  | .setReturnDelay id delay => Sys2Proof.Machine.execSetReturnDelay id delay s
  | .setAngleLimit id cwLimit ccwLimit => Sys2Proof.Machine.execSetAngleLimit id cwLimit ccwLimit s
  | .setTempLimit id limit => Sys2Proof.Machine.execSetTempLimit id limit s
  | .setCompliance id m1 m2 s1 s2 punch => Sys2Proof.Machine.execSetCompliance id m1 m2 s1 s2 punch s
  | .setMove id pos time => Sys2Proof.Machine.execSetMove id pos time s
  | .setMaxTorque id pct => Sys2Proof.Machine.execSetMaxTorque id pct s
  | .setTorque id mode => Sys2Proof.Machine.execSetTorque id mode s
  | .setPID id coef => Sys2Proof.Machine.execSetPID id coef s
  | .torqueBatch list => Sys2Proof.Machine.execTorqueBatch list s
  | .moveBatch list => Sys2Proof.Machine.execMoveBatch list s
  | .buildShort id flags address width data => Sys2Proof.Machine.execBuildShort id flags address width data s
  | .buildLong address width count data => Sys2Proof.Machine.execBuildLong address width count data s

end Sys2Proof.Machine
end

