-- ==== Sys2Proof/Machine/Port.lean ====
section
/-! DEFINITION. What may be done with an instruction: a command is issued on the command port (R11, R25), a
builder function is evaluated by itself (R26); neither takes the other's place. -/

namespace Sys2Proof.Machine

/-- The command port takes one of the sixteen commands and nothing else (R25, R26). -/
def issue (i : Instr) (s : State) : Outcome :=
  if isCommand i then exec i s else .refused .notACommand

/-- The command port given bytes: those of exactly one frame, and of a command (R25, log 1). -/
def issueEncoded (bytes : List Byte) (s : State) : Outcome :=
  match decodeWhole bytes with
  | some i => issue i s
  | none => .refused .undecodable

/-- A builder function is evaluated in its own right, outside the ports (R26, log 2). -/
def evaluate (i : Instr) (s : State) : Outcome :=
  if isCommand i then .refused .notAFunction else exec i s

/-- How an instruction given by its frame bytes comes to run: a builder function is evaluated, anything else
goes to the command port (log 11). -/
def actionOfBytes (bytes : List Byte) : CallerAction :=
  match decodeWhole bytes with
  | some i => if isCommand i then .encoded bytes else .evaluate i
  | none => .encoded bytes

end Sys2Proof.Machine
end

