-- ==== Sys2Proof/Machine/Step.lean ====
section
/-! DEFINITION. One step takes the caller's next action (R76, R216): there is no program counter and no
program (R32). -/

namespace Sys2Proof.Machine

/-- One action of the caller; with none pending the block is idle (R212, log 6). -/
def step (s : State) : Host.Outcome State Fault Refusal :=
  match s.caller with
  | [] => .next (idle s)
  | .openLink config :: rest => openTransport config { s with caller := rest }
  | .closeLink :: rest => closeTransport { s with caller := rest }
  | .command i :: rest => issue i { s with caller := rest }
  | .together _ _ :: _ => .refused .concurrentCommands
  | .encoded bytes :: rest => issueEncoded bytes { s with caller := rest }
  | .evaluate i :: rest => evaluate i { s with caller := rest }

/-- The state in which the next step runs the instruction of an opcode-table word: running it is the
caller's next action, and the link is open (R218, log 11). -/
def State.withFetchWord (s : State) (nbits w : Nat) : State :=
  { s with link := .opened, caller := actionOfBytes (tableBytes nbits w) :: s.caller }

end Sys2Proof.Machine
end

