-- ==== Sys2Proof/WellFormed.lean ====
section
/-! DEFINITION. Which instructions their own frame can carry: every operand is a value the field's decoder
gives back (R124), and a builder call's frame is claimed by no more specific row (R98).
The machine runs ill-formed commands too (R14: every integer is an operand); this check only says for which
instructions decoding after encoding can give the instruction back. -/

namespace Sys2Proof

/-- `lo ≤ v ≤ hi`. -/
def carries (lo hi v : Int) : Bool := decide (lo ≤ v) && decide (v ≤ hi)

/-- Carried by one byte: `DEC8 (ENC8 v) = v` (R124). -/
def carriesByte (v : Int) : Bool := carries 0 255 v

/-- Carried by two bytes read as unsigned (R124). -/
def carriesUnsigned16 (v : Int) : Bool := carries 0 65535 v

/-- Carried by two bytes read as signed (R124). -/
def carriesSigned16 (v : Int) : Bool := carries (-32768) 32767 v

/-- The flat list of a torque batch is made of whole entries whose scalars a byte carries (R47, R174). -/
def torqueListCarried : List Int → Bool
  | [] => true
  | id :: mode :: rest => carriesByte id && carriesByte mode && torqueListCarried rest
  | [_] => false

/-- The flat list of a move batch is made of whole entries, position signed, duration unsigned
(R47, R177). -/
def moveListCarried : List Int → Bool
  | [] => true
  | id :: pos :: time :: rest =>
    carriesByte id && carriesSigned16 pos && carriesUnsigned16 time && moveListCarried rest
  | [_] => false
  | [_, _] => false

/-- The (flags, address, length) triples that the fourteen specific SHORT rows claim (R97, R98). -/
def shortRowTriples : List (Byte × Byte × Byte) :=
  [(0x40, 0xFF, 0), (0x20, 0xFF, 0), (0x10, 0xFF, 0), (0x00, 0x04, 1), (0x00, 0x05, 1),
   (0x00, 0x06, 1), (0x00, 0x07, 1)] ++
  [(0x00, 0x08, 4), (0x00, 0x0E, 2), (0x00, 0x18, 6), (0x00, 0x1E, 4), (0x00, 0x23, 1),
   (0x00, 0x24, 1), (0x00, 0x26, 1)]

/-- The (address, length) pairs that the two specific LONG rows claim (R97, R98). -/
def longRowPairs : List (Byte × Byte) := [(0x24, 2), (0x1E, 5)]

/-- The frame of the instruction carries it whole, and no other row of the opcode table claims it. -/
def Instr.wf : Instr → Bool
  | .writeFlashRom id => carriesByte id
  | .reboot id => carriesByte id
  | .factoryReset id => carriesByte id
  | .setId id newId => carriesByte id && carriesByte newId
  | .setReverse id rev => carriesByte id && carriesByte rev
  | .setBaudrate id index => carriesByte id && carriesByte index
  | .setReturnDelay id delay => carriesByte id && carriesByte delay
  | .setAngleLimit id cwLimit ccwLimit =>
    carriesByte id && carriesUnsigned16 cwLimit && carriesUnsigned16 ccwLimit
  | .setTempLimit id limit => carriesByte id && carriesUnsigned16 limit
  | .setCompliance id cwMargin ccwMargin cwSlope ccwSlope punch =>
    carriesByte id && carriesByte cwMargin && carriesByte ccwMargin && carriesByte cwSlope &&
      carriesByte ccwSlope && carriesUnsigned16 punch
  | .setMove id pos time => carriesByte id && carriesSigned16 pos && carriesUnsigned16 time
  | .setMaxTorque id pct => carriesByte id && carriesByte pct
  | .setTorque id mode => carriesByte id && carriesByte mode
  | .setPID id coef => carriesByte id && carriesByte coef
  | .torqueBatch list => torqueListCarried list && decide (list.length ≤ 2 * 255)
  | .moveBatch list => moveListCarried list && decide (list.length ≤ 3 * 255)
  | .buildShort id flags address width data =>
    carriesByte id && decide (data.length = width.toNat) &&
      !decide (id = 0 ∧ flags = 0) && !shortRowTriples.contains (flags, address, width)
  | .buildLong address width count data =>
    decide (data.length = width.toNat * count.toNat) && !longRowPairs.contains (address, width) &&
      !(decide (count = 1) && shortRowTriples.contains (0, address, width))

end Sys2Proof
end

