-- ==== Sys2Proof/Safety.lean ====
section
/-! DEFINITION. The words in which claims about the block are stated: what a whole frame is, what a command
that sends or raises leaves behind, the bounds of R192 as propositions, and the invariants of the machine. -/

namespace Sys2Proof.Machine

/-- A frame the wire format allows (R34, R85): the header, a payload of the length its format says (R44), and
a checksum that cancels the bytes from offset 2 on (R112). -/
structure Frame.WellFormed (f : Frame) : Prop where
  header : f.header0 = 0xFA ∧ f.header1 = 0xAF
  shape : (f.payload.length = f.length.toNat ∧ f.count = countRule f.flags) ∨
    (f.servoId = 0 ∧ f.flags = 0 ∧ f.payload.length = f.length.toNat * f.count.toNat)
  residue : xorBytes (f.bytes.drop 2) = 0

/-- The bytes are one whole frame: nothing truncated, padded or partly encoded (R197). -/
def WholeFrame (bytes : List Byte) : Prop := ∃ f : Frame, f.WellFormed ∧ bytes = f.bytes

/-- Every accepted write is followed at once by its flush, and no flush stands elsewhere (R80, R206). -/
def flushesPaired : List TransportCall → Bool
  | [] => true
  | .write _ .accepted :: .flush :: rest => flushesPaired rest
  | .write _ .accepted :: _ => false
  | .flush :: _ => false
  | .write _ .failed :: rest => flushesPaired rest
  | .openLink _ _ :: rest => flushesPaired rest
  | .close :: rest => flushesPaired rest

/-- Is the call a write of a frame? -/
def isWrite : TransportCall → Bool
  | .write _ _ => true
  | .openLink _ _ => false
  | .flush => false
  | .close => false

/-- The bytes a call hands over: a write's frame, else none. -/
def writtenBytes : TransportCall → List Byte
  | .write bytes _ => bytes
  | .openLink _ _ => []
  | .flush => []
  | .close => []

/-- The link as the calls to the transport leave it, starting from `link` (R218). -/
def linkAfter (link : Link) : List TransportCall → Link
  | [] => link
  | .openLink _ .accepted :: rest => linkAfter .opened rest
  | .openLink _ .failed :: rest => linkAfter link rest
  | .close :: rest => linkAfter .closed rest
  | .write _ _ :: rest => linkAfter link rest
  | .flush :: rest => linkAfter link rest

/-- What every step keeps: a legal `MAX_BATCH` (R12), only whole frames handed over (R197), one flush after
each accepted write (R206), a well-formed frame where there is one, and none beside an encoding error
(R196). -/
structure State.Inv (s : State) : Prop where
  maxBatch : 1 ≤ s.maxBatch ∧ s.maxBatch ≤ 255
  writes : ∀ bytes answer, TransportCall.write bytes answer ∈ s.calls → WholeFrame bytes
  flushes : flushesPaired s.calls = true
  frame : ∀ f, s.frame = some f → f.WellFormed
  error : s.resultPort = some .malformedBatchInput ∨ s.resultPort = some .outOfRangeParameter →
    s.frame = none

/-- What a command that gets as far as `emit` leaves behind, and all it leaves unchanged (R206): one write of
exactly these bytes, a flush if and only if the transport accepted it, the result by the transport's answer. -/
structure Sends (bytes : List Byte) (s t : State) : Prop where
  accepted : nextAnswer s = .accepted →
    t.resultPort = some .ok ∧ t.calls = s.calls ++ [.write bytes .accepted, .flush]
  failed : nextAnswer s = .failed →
    t.resultPort = some .writeFailure ∧ t.calls = s.calls ++ [.write bytes .failed]
  frame : ∃ f, t.frame = some f ∧ f.bytes = bytes
  parameters : t.policy = s.policy ∧ t.maxBatch = s.maxBatch
  link : t.link = s.link
  caller : t.caller = s.caller
  answers : t.answers = s.answers.tail ∧ t.asked = s.asked + 1

/-- What a command that ends in an encoding error leaves behind (R196): the kind on the result port, no
frame, everything else as it was. -/
abbrev Raises (e : Result) (s t : State) : Prop := t = { s with frame := none, resultPort := some e }

/-- Servo ids (R62). -/
abbrev IdRange (v : Int) : Prop := 1 ≤ v ∧ v ≤ 127

/-- Unsigned 8-bit values (R119). -/
abbrev ByteRange (v : Int) : Prop := 0 ≤ v ∧ v ≤ 255

/-- Unsigned 16-bit values (R119). -/
abbrev WordRange (v : Int) : Prop := 0 ≤ v ∧ v ≤ 65535

/-- Torque modes (R119). -/
abbrev ModeRange (v : Int) : Prop := v = 0 ∨ v = 1 ∨ v = 2

/-- Positions (R119). -/
abbrev PosRange (v : Int) : Prop := -1500 ≤ v ∧ v ≤ 1500

/-- Durations (R119). -/
abbrev TimeRange (v : Int) : Prop := 0 ≤ v ∧ v ≤ 0x3FFF

/-- Element `k` of a flat batch list, counting from 0. -/
def scalar (list : List Int) (k : Nat) : Int := list.getD k 0

/-- Every entry of a flat torque list is in bounds, by element positions (R192). -/
abbrev TorqueRange (list : List Int) : Prop :=
  ∀ k, k < list.length / 2 → IdRange (scalar list (2 * k)) ∧ ModeRange (scalar list (2 * k + 1))

/-- Every entry of a flat move list is in bounds, by element positions (R192). -/
abbrev MoveRange (list : List Int) : Prop :=
  ∀ k, k < list.length / 3 → IdRange (scalar list (3 * k)) ∧ PosRange (scalar list (3 * k + 1)) ∧
    TimeRange (scalar list (3 * k + 2))

/-- The table of R192, operand by operand. -/
def Bounded (maxBatch : Nat) : Instr → Prop
  | .writeFlashRom id => IdRange id
  | .reboot id => IdRange id
  | .factoryReset id => IdRange id
  | .setId id newId => IdRange id ∧ IdRange newId
  | .setReverse id rev => IdRange id ∧ ByteRange rev
  | .setBaudrate id index => IdRange id ∧ ByteRange index
  | .setReturnDelay id delay => IdRange id ∧ ByteRange delay
  | .setAngleLimit id cwLimit ccwLimit => IdRange id ∧ WordRange cwLimit ∧ WordRange ccwLimit
  | .setTempLimit id limit => IdRange id ∧ WordRange limit
  | .setCompliance id cwMargin ccwMargin cwSlope ccwSlope punch =>
    IdRange id ∧ ByteRange cwMargin ∧ ByteRange ccwMargin ∧ ByteRange cwSlope ∧ ByteRange ccwSlope ∧
      WordRange punch
  | .setMove id pos time => IdRange id ∧ PosRange pos ∧ TimeRange time
  | .setMaxTorque id pct => IdRange id ∧ ByteRange pct
  | .setTorque id mode => IdRange id ∧ ModeRange mode
  | .setPID id coef => IdRange id ∧ ByteRange coef
  | .torqueBatch list => (1 ≤ list.length / 2 ∧ list.length / 2 ≤ maxBatch) ∧ TorqueRange list
  | .moveBatch list => (1 ≤ list.length / 3 ∧ list.length / 3 ≤ maxBatch) ∧ MoveRange list
  | .buildShort _ _ _ _ _ => True
  | .buildLong _ _ _ _ => True

/-- The law of a catalog operation on an open link (R149): under `truncate`, or in bounds, it answers a next
state in which exactly these bytes were handed over; under `reject` and out of bounds it ends in
`OutOfRangeParameter`. -/
def CatalogLaw (i : Instr) (bounds : Prop) (bytes : List Byte) : Prop :=
  ∀ s : State, s.link = .opened →
    ((s.policy = .truncate ∨ bounds) → ∃ t, exec i s = .next t ∧ Sends bytes s t) ∧
    ((s.policy = .reject ∧ ¬ bounds) → ∃ t, exec i s = .next t ∧ Raises .outOfRangeParameter s t)

/-- The arity of a batch list is right and its count fits (R170 to R172); no condition on the other
instructions. -/
def CountFits (maxBatch : Nat) : Instr → Prop
  | .torqueBatch list => list.length % 2 = 0 ∧ list.length / 2 ≤ maxBatch
  | .moveBatch list => list.length % 3 = 0 ∧ list.length / 3 ≤ maxBatch
  | _ => True

/-- The instructions whose frame has format LONG (R87, R97). -/
def isLong : Instr → Bool
  | .torqueBatch _ | .moveBatch _ | .buildLong _ _ _ _ => true
  | _ => false

/-- What a caller can observe of one step (R27): the result and the frame. -/
def observation (t : State) : Option Result × Option Frame := (t.resultPort, t.frame)

end Sys2Proof.Machine
end

