-- ==== Sys2Proof/Certificates/Slice0/Obligations.lean ====
section
/-! DEFINITION. The statements for the provers, from the numbered rules of spec/. -/

open Sys2Proof Sys2Proof.Machine

/-! ### Reset and constants -/

/-- R51: the parameters at their defaults, no frame, no result pending, the link closed (the values are the
spec's own decisions D4, D9 and D17; the fields this model adds are left out). -/
def Obligations.ResetHoldsTheRuledValues : Prop :=
  State.reset.policy = .truncate ∧ State.reset.maxBatch = 255 ∧ State.reset.frame = none ∧
    State.reset.resultPort = none ∧ State.reset.link = .closed

/-- R36: the fourteen (flags, address, payloadWidth) triples, letter for letter. -/
def Obligations.CatalogHoldsTheFourteenTriples : Prop :=
  catalog .writeFlashRom = ⟨0x40, 0xFF, 0⟩ ∧ catalog .reboot = ⟨0x20, 0xFF, 0⟩ ∧
    catalog .factoryReset = ⟨0x10, 0xFF, 0⟩ ∧ catalog .setId = ⟨0x00, 0x04, 1⟩ ∧
    catalog .setReverse = ⟨0x00, 0x05, 1⟩ ∧ catalog .setBaudrate = ⟨0x00, 0x06, 1⟩ ∧
    catalog .setReturnDelay = ⟨0x00, 0x07, 1⟩ ∧ catalog .setAngleLimit = ⟨0x00, 0x08, 4⟩ ∧
    catalog .setTempLimit = ⟨0x00, 0x0E, 2⟩ ∧ catalog .setCompliance = ⟨0x00, 0x18, 6⟩ ∧
    catalog .setMove = ⟨0x00, 0x1E, 4⟩ ∧ catalog .setMaxTorque = ⟨0x00, 0x23, 1⟩ ∧
    catalog .setTorque = ⟨0x00, 0x24, 1⟩ ∧ catalog .setPID = ⟨0x00, 0x26, 1⟩

/-- R52 (D22 of the spec): the default operand values (the command frames built from them stand in the tests). -/
def Obligations.DefaultOperandValues : Prop :=
  defaultCwLimit = 1500 ∧ defaultCcwLimit = 64036 ∧ defaultMargin = 2 ∧ defaultSlope = 1 ∧
    defaultPunch = 8 ∧ defaultTempLimit = 55 ∧ defaultMaxTorque = 100 ∧ defaultPID = 100 ∧
    enc16 defaultCcwLimit = enc16 (-1500)

/-! ### Checksum and codec -/

/-- R111 (D20 of the spec, its own choice): CHECKSUM has a value exactly from three bytes on. -/
def Obligations.ChecksumNeedsThreeBytes : Prop :=
  ∀ body : List Byte, (checksum body).isSome ↔ 3 ≤ body.length

/-- R110: on three bytes CHECKSUM is the third, each byte appended is XORed in, and the two header bytes do not
enter it. -/
def Obligations.ChecksumStartsAtIndexTwo : Prop :=
  (∀ (h0 h1 b : Byte), checksum [h0, h1, b] = some b) ∧
    (∀ (h0 h1 b c : Byte) (rest : List Byte),
      checksum (h0 :: h1 :: b :: (rest ++ [c])) = (checksum (h0 :: h1 :: b :: rest)).map (· ^^^ c)) ∧
    (∀ (h0 h1 k0 k1 : Byte) (rest : List Byte), checksum (h0 :: h1 :: rest) = checksum (k0 :: k1 :: rest))

/-- R113: the order of the bytes from offset 2 on does not change the checksum. -/
def Obligations.ChecksumIgnoresByteOrder : Prop :=
  ∀ (h0 h1 : Byte) (xs ys : List Byte), xs.Perm ys → checksum (h0 :: h1 :: xs) = checksum (h0 :: h1 :: ys)

/-- R124 with R121 to R123 (the spec's own derivation): which operands the field decoders give back, exactly. -/
def Obligations.FieldRoundTripsExactlyInRange : Prop :=
  (∀ v : Int, dec8 (lo8 v) = v ↔ 0 ≤ v ∧ v ≤ 255) ∧
    (∀ v : Int, dec16U (lo8 v) (lo8 (v / 256)) = v ↔ 0 ≤ v ∧ v ≤ 65535) ∧
    (∀ v : Int, dec16S (lo8 v) (lo8 (v / 256)) = v ↔ -32768 ≤ v ∧ v ≤ 32767) ∧
    (∀ b : Byte, enc8 (dec8 b) = [b]) ∧ (∀ lo hi : Byte, enc16 (dec16U lo hi) = [lo, hi]) ∧
    (∀ lo hi : Byte, enc16 (dec16S lo hi) = [lo, hi])

/-- R116, R118, R14: for every integer the two bytes are those of its low 16 bits, low byte first, and two
operands give the same bytes exactly when they agree modulo 65536, whatever their signs. That values outside 16
bits are reduced is the spec's decision D5. -/
def Obligations.Enc16KeepsTheLowSixteenBits : Prop :=
  (∀ v : Int, ∃ lo hi : Byte, enc16 v = [lo, hi] ∧ (lo.toNat : Int) = lo16 v % 256 ∧
      (hi.toNat : Int) = lo16 v / 256) ∧
    (∀ v w : Int, enc16 v = enc16 w ↔ v % 65536 = w % 65536)

/-- R114: one byte, the operand modulo 256 with a non-negative remainder. -/
def Obligations.Enc8KeepsTheLowEightBits : Prop :=
  ∀ v : Int, ∃ b : Byte, enc8 v = [b] ∧ (b.toNat : Int) = v % 256

/-! ### Packet builder -/

/-- R132 (these ranges are the spec's own derivation from the rule's formula): over all 256 values of the flags byte, the count is 1 exactly from `0x00` to `0x0E`, else 0. -/
def Obligations.CountRuleOverAllFlags : Prop :=
  ∀ flags : Byte, (flags.toNat ≤ 0x0E → countRule flags = 1) ∧ (0x0F ≤ flags.toNat → countRule flags = 0)

/-- R130, R134, R140: BUILD_SHORT gives the header, the low byte of the id, the descriptor's bytes, the
count by the count rule, the data verbatim and the checksum, for every integer id; it has no value exactly when
the data's length is not the width. -/
def Obligations.BuildShortLaysOutTheFrame : Prop :=
  ∀ (id : Int) (flags address width : Byte) (data : List Byte),
    (data.length = width.toNat → ∃ f, buildShort id flags address width data = some f ∧
      f.bytes = [0xFA, 0xAF] ++ ([lo8 id, flags, address, width, countRule flags] ++ data) ++
        [xorBytes ([lo8 id, flags, address, width, countRule flags] ++ data)]) ∧
    (data.length ≠ width.toNat → buildShort id flags address width data = none)

/-- R137, R138, R140: BUILD_LONG gives id 0, flags 0, the literal count, the data verbatim and the checksum;
it has no value exactly when the data's length is not width times count. -/
def Obligations.BuildLongLaysOutTheFrame : Prop :=
  ∀ (address width count : Byte) (data : List Byte),
    (data.length = width.toNat * count.toNat → ∃ f, buildLong address width count data = some f ∧
      f.bytes = [0xFA, 0xAF] ++ ([0x00, 0x00, address, width, count] ++ data) ++
        [xorBytes ([0x00, 0x00, address, width, count] ++ data)]) ∧
    (data.length ≠ width.toNat * count.toNat → buildLong address width count data = none)

/-- R141 (the spec's own derivation), R46, R112: the length law, the header and the zero residue of whatever the builders answer. -/
def Obligations.BuiltFramesObeyTheLengthLaw : Prop :=
  (∀ id flags address width data f, buildShort id flags address width data = some f →
    f.bytes.length = 8 + width.toNat ∧ f.bytes.take 2 = [0xFA, 0xAF] ∧ xorBytes (f.bytes.drop 2) = 0) ∧
  (∀ address width count data f, buildLong address width count data = some f →
    f.bytes.length = 8 + width.toNat * count.toNat ∧ f.bytes.take 2 = [0xFA, 0xAF] ∧
      xorBytes (f.bytes.drop 2) = 0)

/-- The two format rows as instructions (log 2, the model's choice): evaluating a builder answers the built
frame and changes nothing but the two output fields; data of the wrong length is refused (R140). -/
def Obligations.BuilderRowsEvaluateTheFunctions : Prop :=
  (∀ (id : Int) (flags address width : Byte) (data : List Byte) (s : State),
    (data.length = width.toNat → ∃ f, exec (.buildShort id flags address width data) s =
        .next { s with frame := some f, resultPort := none } ∧
      f.bytes = framed ([lo8 id, flags, address, width, countRule flags] ++ data)) ∧
    (data.length ≠ width.toNat →
      exec (.buildShort id flags address width data) s = .refused .builderDomain)) ∧
  (∀ (address width count : Byte) (data : List Byte) (s : State),
    (data.length = width.toNat * count.toNat → ∃ f, exec (.buildLong address width count data) s =
        .next { s with frame := some f, resultPort := none } ∧
      f.bytes = framed ([0x00, 0x00, address, width, count] ++ data)) ∧
    (data.length ≠ width.toNat * count.toNat →
      exec (.buildLong address width count data) s = .refused .builderDomain))

/-- R90, 95_test_vectors.md B12: a short frame with id 0 and a long frame of one one-byte entry can be the
same bytes. -/
def Obligations.IdZeroShortFrameReadsAsLong : Prop :=
  ∀ (id : Int) (address b : Byte), id % 256 = 0 →
    ∃ f g, buildShort id 0x00 address 1 [b] = some f ∧ buildLong address 1 1 [b] = some g ∧
      f.bytes = g.bytes ∧ f.payload.length = g.payload.length

/-! ### The catalog operations -/

/-- R150 to R152: the flag-only operations send 8 bytes with the checksum `lo8(id)` XOR `0xBF`, `0xDF`,
`0xEF` (these three formulas are the spec's own derivation); under `reject` an id outside 1 to 127 ends them in OutOfRangeParameter. -/
def Obligations.FlagOnlyOperations : Prop :=
  ∀ id : Int,
    CatalogLaw (.writeFlashRom id) (IdRange id)
      [0xFA, 0xAF, lo8 id, 0x40, 0xFF, 0x00, 0x00, lo8 id ^^^ 0xBF] ∧
    CatalogLaw (.reboot id) (IdRange id)
      [0xFA, 0xAF, lo8 id, 0x20, 0xFF, 0x00, 0x00, lo8 id ^^^ 0xDF] ∧
    CatalogLaw (.factoryReset id) (IdRange id)
      [0xFA, 0xAF, lo8 id, 0x10, 0xFF, 0x00, 0x00, lo8 id ^^^ 0xEF]

/-- R153: setId, both operands bounded as servo ids (for `newId` the spec's own choice, R192). -/
def Obligations.SetIdOperation : Prop :=
  ∀ id newId : Int, CatalogLaw (.setId id newId) (IdRange id ∧ IdRange newId)
    (framed [lo8 id, 0x00, 0x04, 0x01, 0x01, lo8 newId])

/-- R154 to R156: the three one-byte registers at `0x05`, `0x06`, `0x07`. -/
def Obligations.OneByteConfigurationOperations : Prop :=
  ∀ id v : Int,
    CatalogLaw (.setReverse id v) (IdRange id ∧ ByteRange v)
      (framed [lo8 id, 0x00, 0x05, 0x01, 0x01, lo8 v]) ∧
    CatalogLaw (.setBaudrate id v) (IdRange id ∧ ByteRange v)
      (framed [lo8 id, 0x00, 0x06, 0x01, 0x01, lo8 v]) ∧
    CatalogLaw (.setReturnDelay id v) (IdRange id ∧ ByteRange v)
      (framed [lo8 id, 0x00, 0x07, 0x01, 0x01, lo8 v])

/-- R157: setAngleLimit, clockwise limit first (the spec's decision D7), each low byte first, limits unsigned
under `reject`. -/
def Obligations.SetAngleLimitOperation : Prop :=
  ∀ id cwLimit ccwLimit : Int,
    CatalogLaw (.setAngleLimit id cwLimit ccwLimit) (IdRange id ∧ WordRange cwLimit ∧ WordRange ccwLimit)
      (framed [lo8 id, 0x00, 0x08, 0x04, 0x01, lo8 cwLimit, lo8 (cwLimit / 256), lo8 ccwLimit,
        lo8 (ccwLimit / 256)])

/-- R158: setTempLimit. -/
def Obligations.SetTempLimitOperation : Prop :=
  ∀ id limit : Int, CatalogLaw (.setTempLimit id limit) (IdRange id ∧ WordRange limit)
    (framed [lo8 id, 0x00, 0x0E, 0x02, 0x01, lo8 limit, lo8 (limit / 256)])

/-- R159: setCompliance, two margins, two slopes, punch low byte first (the order is the spec's decision
D7). -/
def Obligations.SetComplianceOperation : Prop :=
  ∀ id cwMargin ccwMargin cwSlope ccwSlope punch : Int,
    CatalogLaw (.setCompliance id cwMargin ccwMargin cwSlope ccwSlope punch)
      (IdRange id ∧ ByteRange cwMargin ∧ ByteRange ccwMargin ∧ ByteRange cwSlope ∧ ByteRange ccwSlope ∧
        WordRange punch)
      (framed [lo8 id, 0x00, 0x18, 0x06, 0x01, lo8 cwMargin, lo8 ccwMargin, lo8 cwSlope, lo8 ccwSlope,
        lo8 punch, lo8 (punch / 256)])

/-- R160: setMove, position before duration (the spec's decision D7), each low byte first. -/
def Obligations.SetMoveOperation : Prop :=
  ∀ id pos time : Int, CatalogLaw (.setMove id pos time) (IdRange id ∧ PosRange pos ∧ TimeRange time)
    (framed [lo8 id, 0x00, 0x1E, 0x04, 0x01, lo8 pos, lo8 (pos / 256), lo8 time, lo8 (time / 256)])

/-- R161, R163: setMaxTorque and setPID. -/
def Obligations.MaxTorqueAndPidOperations : Prop :=
  ∀ id v : Int,
    CatalogLaw (.setMaxTorque id v) (IdRange id ∧ ByteRange v)
      (framed [lo8 id, 0x00, 0x23, 0x01, 0x01, lo8 v]) ∧
    CatalogLaw (.setPID id v) (IdRange id ∧ ByteRange v)
      (framed [lo8 id, 0x00, 0x26, 0x01, 0x01, lo8 v])

/-- R162: setTorque, the mode 0, 1 or 2 under `reject`, its low byte under `truncate`. -/
def Obligations.SetTorqueOperation : Prop :=
  ∀ id mode : Int, CatalogLaw (.setTorque id mode) (IdRange id ∧ ModeRange mode)
    (framed [lo8 id, 0x00, 0x24, 0x01, 0x01, lo8 mode])

/-! ### The batch operations -/

/-- R174, R175, R170: torqueBatch on an open link. An odd length is malformed; more than MAX_BATCH entries,
and under `reject` no entry or one out of bounds, end in OutOfRangeParameter; otherwise the header
`FA AF 00 00 24 02 n`, for each entry the low bytes of its id and mode, and the checksum are sent. The premise
on MAX_BATCH is the machine's invariant (R12). -/
def Obligations.TorqueBatchOperation : Prop :=
  ∀ (list : List Int) (s : State), s.link = .opened → s.maxBatch ≤ 255 →
    (list.length % 2 ≠ 0 → ∃ t, exec (.torqueBatch list) s = .next t ∧ Raises .malformedBatchInput s t) ∧
    (list.length % 2 = 0 →
      (s.maxBatch < list.length / 2 ∨
        (s.policy = .reject ∧ ¬ (1 ≤ list.length / 2 ∧ TorqueRange list))) →
      ∃ t, exec (.torqueBatch list) s = .next t ∧ Raises .outOfRangeParameter s t) ∧
    (list.length % 2 = 0 → list.length / 2 ≤ s.maxBatch →
      (s.policy = .truncate ∨ (1 ≤ list.length / 2 ∧ TorqueRange list)) →
      ∃ t, exec (.torqueBatch list) s = .next t ∧
        Sends (framed ([0x00, 0x00, 0x24, 0x02, BitVec.ofNat 8 (list.length / 2)] ++
          (List.range (list.length / 2)).flatMap fun k =>
            [lo8 (scalar list (2 * k)), lo8 (scalar list (2 * k + 1))])) s t)

/-- R177, R178, R170: moveBatch on an open link. A length that is no multiple of 3 is malformed; more than
MAX_BATCH entries, and under `reject` no entry or one out of bounds, end in OutOfRangeParameter; otherwise the
header `FA AF 00 00 1E 05 n`, for each entry the low byte of its id and the two bytes each of its position and
duration, and the checksum are sent. -/
def Obligations.MoveBatchOperation : Prop :=
  ∀ (list : List Int) (s : State), s.link = .opened → s.maxBatch ≤ 255 →
    (list.length % 3 ≠ 0 → ∃ t, exec (.moveBatch list) s = .next t ∧ Raises .malformedBatchInput s t) ∧
    (list.length % 3 = 0 →
      (s.maxBatch < list.length / 3 ∨
        (s.policy = .reject ∧ ¬ (1 ≤ list.length / 3 ∧ MoveRange list))) →
      ∃ t, exec (.moveBatch list) s = .next t ∧ Raises .outOfRangeParameter s t) ∧
    (list.length % 3 = 0 → list.length / 3 ≤ s.maxBatch →
      (s.policy = .truncate ∨ (1 ≤ list.length / 3 ∧ MoveRange list)) →
      ∃ t, exec (.moveBatch list) s = .next t ∧
        Sends (framed ([0x00, 0x00, 0x1E, 0x05, BitVec.ofNat 8 (list.length / 3)] ++
          (List.range (list.length / 3)).flatMap fun k =>
            [lo8 (scalar list (3 * k)), lo8 (scalar list (3 * k + 1)), lo8 (scalar list (3 * k + 1) / 256),
              lo8 (scalar list (3 * k + 2)), lo8 (scalar list (3 * k + 2) / 256)])) s t)

/-- R188, R171, R194: MalformedBatchInput is the result exactly of a batch command whose list length is not a
multiple of its arity, under either policy and whatever the values and the entry count; no frame byte has been
built then. -/
def Obligations.MalformedExactlyWhenArityFails : Prop :=
  ∀ (i : Instr) (s : State), s.link = .opened → isCommand i = true →
    ((∃ t, exec i s = .next t ∧ t.resultPort = some .malformedBatchInput) ↔
      ((∃ list, i = .torqueBatch list ∧ list.length % 2 ≠ 0) ∨
        (∃ list, i = .moveBatch list ∧ list.length % 3 ≠ 0))) ∧
    (∀ t, exec i s = .next t → t.resultPort = some .malformedBatchInput → Raises .malformedBatchInput s t)

/-- R172: more than MAX_BATCH entries end in OutOfRangeParameter under either policy; the empty batch is sent
as an 8-byte frame under `truncate` and ends in OutOfRangeParameter under `reject`. These are the spec's
decisions D9 and D10. -/
def Obligations.EntryCountAndTheEmptyBatch : Prop :=
  ∀ s : State, s.link = .opened →
    (∀ list : List Int, list.length % 2 = 0 → s.maxBatch < list.length / 2 →
      ∃ t, exec (.torqueBatch list) s = .next t ∧ Raises .outOfRangeParameter s t) ∧
    (∀ list : List Int, list.length % 3 = 0 → s.maxBatch < list.length / 3 →
      ∃ t, exec (.moveBatch list) s = .next t ∧ Raises .outOfRangeParameter s t) ∧
    (s.policy = .truncate →
      (∃ t, exec (.torqueBatch []) s = .next t ∧ Sends [0xFA, 0xAF, 0, 0, 0x24, 0x02, 0, 0x26] s t) ∧
      (∃ t, exec (.moveBatch []) s = .next t ∧ Sends [0xFA, 0xAF, 0, 0, 0x1E, 0x05, 0, 0x1B] s t)) ∧
    (s.policy = .reject →
      (∃ t, exec (.torqueBatch []) s = .next t ∧ Raises .outOfRangeParameter s t) ∧
      (∃ t, exec (.moveBatch []) s = .next t ∧ Raises .outOfRangeParameter s t))

/-- R173, R180: the flattened data has width times n bytes, and entry k stands at k times width and depends
on the scalars of entry k alone. -/
def Obligations.LanesStandInListOrder : Prop :=
  (∀ list : List Int, list.length % 2 = 0 →
    (flattenTorque list).length = 2 * (list.length / 2) ∧
    ∀ k, k < list.length / 2 → ((flattenTorque list).drop (k * 2)).take 2 =
      enc8 (scalar list (2 * k)) ++ enc8 (scalar list (2 * k + 1))) ∧
  (∀ list : List Int, list.length % 3 = 0 →
    (flattenMove list).length = 5 * (list.length / 3) ∧
    ∀ k, k < list.length / 3 → ((flattenMove list).drop (k * 5)).take 5 =
      enc8 (scalar list (3 * k)) ++ enc16 (scalar list (3 * k + 1)) ++ enc16 (scalar list (3 * k + 2)))

/-! ### Errors -/

/-- R192 (the spec's decision D6): the check that `reject` runs is the table of bounds, operand by operand. -/
def Obligations.InBoundsIsTheTable : Prop :=
  ∀ (maxBatch : Nat) (i : Instr), inBounds maxBatch i = true ↔ Bounded maxBatch i

/-- R196, R197, R179, R189: a command that ends in an encoding error has called the transport not at all, used
up no answer of it, built no frame and changed no state. -/
def Obligations.EncodingErrorsTouchNothing : Prop :=
  ∀ (i : Instr) (s t : State), exec i s = .next t →
    (t.resultPort = some .malformedBatchInput ∨ t.resultPort = some .outOfRangeParameter) →
    t = { s with frame := none, resultPort := t.resultPort }

/-- R206, R76 (d), R187, R195: a command that answers neither of the two encoding errors has handed over
exactly one whole frame, once; its result is Ok when the transport accepted the write and WriteFailure when
not. The flush after an accepted write is the spec's decision D16. -/
def Obligations.OneWritePerCommand : Prop :=
  ∀ (i : Instr) (s t : State), isCommand i = true → exec i s = .next t →
    t.resultPort ≠ some .malformedBatchInput → t.resultPort ≠ some .outOfRangeParameter →
    ∃ f, t.frame = some f ∧ f.WellFormed ∧
      ((nextAnswer s = .accepted ∧ t.resultPort = some .ok ∧
          t.calls = s.calls ++ [.write f.bytes .accepted, .flush]) ∨
        (nextAnswer s = .failed ∧ t.resultPort = some .writeFailure ∧
          t.calls = s.calls ++ [.write f.bytes .failed]))

/-- R186, R185: no command returns TransportUnavailable, and every command returns one of the other four
results. -/
def Obligations.CommandsReturnAClosedSetOfResults : Prop :=
  ∀ (i : Instr) (s t : State), isCommand i = true → exec i s = .next t →
    t.resultPort = some .ok ∨ t.resultPort = some .writeFailure ∨
      t.resultPort = some .malformedBatchInput ∨ t.resultPort = some .outOfRangeParameter

/-- R30, R31, R217, R82: the frame of every instruction. The parameters, the link and the caller's coming
actions are as they were, and the calls made before stand unchanged at the front. -/
def Obligations.NoInstructionChangesTheBlock : Prop :=
  ∀ (i : Instr) (s t : State), exec i s = .next t →
    t.policy = s.policy ∧ t.maxBatch = s.maxBatch ∧ t.link = s.link ∧ t.caller = s.caller ∧
      s.calls <+: t.calls

/-- R49, R142, R209, R198: no hidden state. What one command lets the caller observe depends on the parameters,
the link and the command alone but for the transport's answer, which decides the result and never the frame;
nothing an earlier command left behind matters. -/
def Obligations.ObservationDependsOnTheCommandAlone : Prop :=
  ∀ (i : Instr) (s₁ s₂ t₁ : State), s₁.policy = s₂.policy → s₁.maxBatch = s₂.maxBatch →
    s₁.link = s₂.link → exec i s₁ = .next t₁ →
    ∃ t₂, exec i s₂ = .next t₂ ∧ t₂.frame = t₁.frame ∧
      (nextAnswer s₁ = nextAnswer s₂ → observation t₂ = observation t₁)

/-- R13, R149, R189: on operands in bounds the two policies cannot be told apart. -/
def Obligations.PoliciesAgreeInBounds : Prop :=
  ∀ (i : Instr) (s t : State), Bounded s.maxBatch i → s.policy = .truncate → exec i s = .next t →
    exec i { s with policy := .reject } = .next { t with policy := .reject }

/-- R189: under `truncate` OutOfRangeParameter comes only from a batch of more than MAX_BATCH entries. -/
def Obligations.TruncateRejectsOnlyOverlongBatches : Prop :=
  ∀ (i : Instr) (s t : State), s.policy = .truncate → exec i s = .next t →
    t.resultPort = some .outOfRangeParameter →
    (∃ list, i = .torqueBatch list ∧ s.maxBatch < list.length / 2) ∨
      (∃ list, i = .moveBatch list ∧ s.maxBatch < list.length / 3)

/-- R40, R41, R101, R103: what header bytes a command can emit. The flags are `0x00`, `0x10`, `0x20` or `0x40`,
and the address `0xFF` goes with flags other than `0x00`, length 0 and count 0. -/
def Obligations.EmittedFlagsAndAddresses : Prop :=
  ∀ (i : Instr) (s t : State) (f : Frame), isCommand i = true → exec i s = .next t → t.frame = some f →
    (f.flags = 0x00 ∨ f.flags = 0x10 ∨ f.flags = 0x20 ∨ f.flags = 0x40) ∧
      (f.address = 0xFF ↔ f.flags ≠ 0x00) ∧ (f.address = 0xFF → f.length = 0 ∧ f.count = 0)

/-- R93: the shortest frame is 8 bytes; a catalog operation's longest 14, a torque batch's 518, a move batch's
1283. -/
def Obligations.FrameLengthBounds : Prop :=
  ∀ (i : Instr) (s t : State) (f : Frame), isCommand i = true → s.maxBatch ≤ 255 → exec i s = .next t →
    t.frame = some f → 8 ≤ f.bytes.length ∧
      match i with
      | .torqueBatch list => f.bytes.length = 8 + 2 * (list.length / 2) ∧ f.bytes.length ≤ 518
      | .moveBatch list => f.bytes.length = 8 + 5 * (list.length / 3) ∧ f.bytes.length ≤ 1283
      | _ => f.bytes.length ≤ 14

/-! ### Encoding -/

/-- R98: no frame belongs to two of the sixteen specific rows. -/
def Obligations.SpecificRowsNeverOverlap : Prop :=
  ∀ head : List Byte, head.length = 7 → ∀ r₁ ∈ specificRows, ∀ r₂ ∈ specificRows,
    r₁.claims head = true → r₂.claims head = true → r₁ = r₂

/-- Words written out from R97 and 95_test_vectors.md decode to what they stand for, and bytes that no
builder makes are refused by name. Two clauses are the model's choice: that the position is read as signed
(log 8), and that a short frame whose count byte is not the count rule's is refused (log 9). -/
def Obligations.WrittenOutWordsDecode : Prop :=
  decode [0xFA, 0xAF, 0x01, 0x40, 0xFF, 0x00, 0x00, 0xBE] = .ok (.writeFlashRom 1, []) ∧
    decode [0xFA, 0xAF, 0x7F, 0x00, 0x24, 0x01, 0x01, 0x01, 0x5A] = .ok (.setTorque 127 1, []) ∧
    decode [0xFA, 0xAF, 0x01, 0x00, 0x1E, 0x04, 0x01, 0x24, 0xFA, 0x50, 0x00, 0x94] =
      .ok (.setMove 1 (-1500) 80, []) ∧
    decode [0xFA, 0xAF, 0x00, 0x00, 0x24, 0x02, 0x02, 0x05, 0x02, 0x7F, 0x01, 0x5D] =
      .ok (.torqueBatch [5, 2, 127, 1], []) ∧
    decode [0xFA, 0xAF, 0x01, 0x80, 0x24, 0x01, 0x00, 0x01, 0xA5] =
      .ok (.buildShort 1 0x80 0x24 1 [0x01], []) ∧
    decode [0xFA, 0xAF, 0x05, 0x00, 0x24, 0x01, 0x00, 0x01, 0x21] = .error .badCount ∧
    decode [0xAF, 0xFA, 0x05, 0x00, 0x24, 0x01, 0x01, 0x01, 0x20] = .error .badHeader

/-- R89, R98, R124: for every well-formed instruction, of all eighteen rows and with every operand value its
frame can carry, decoding its encoding gives it back and leaves the bytes behind the frame untouched. -/
def Obligations.DecodeInvertsEncode : Prop :=
  ∀ (i : Instr) (rest : List Byte), i.wf = true → decode (encode i ++ rest) = .ok (i, rest)

/-- R89: whatever is decoded starts with the header, and its frame is told from its own header bytes: what is
left is what stands behind offset `7 + N`, where N is length times count for the three LONG instructions, whose
id byte is 0, and length for every other one. -/
def Obligations.DecodeReadsOneFrame : Prop :=
  ∀ (bytes rest : List Byte) (i : Instr), decode bytes = .ok (i, rest) →
    bytes.take 2 = [0xFA, 0xAF] ∧
      ∃ n, rest = bytes.drop (8 + n) ∧ 8 + n ≤ bytes.length ∧
        (isLong i = true → bytes.getD 2 0 = 0 ∧ n = (bytes.getD 5 0).toNat * (bytes.getD 6 0).toNat) ∧
        (isLong i = false → n = (bytes.getD 5 0).toNat)

/-- R97, R98, R149, R170: the machine refines the table. Every command, on an open link and with no check
against it, answers a next state in which it has handed over exactly its row's encoding; the encoder and the
packet builder are two independent texts. -/
def Obligations.CommandsEmitTheirTableEncoding : Prop :=
  ∀ (i : Instr) (s : State), isCommand i = true → s.link = .opened → s.maxBatch ≤ 255 →
    CountFits s.maxBatch i → (s.policy = .truncate ∨ Bounded s.maxBatch i) →
    ∃ t, exec i s = .next t ∧ Sends (encode i) s t

/-! ### The step -/

/-- A step runs the decoded instruction (log 1, the model's reading of the open CMD_ENCODING): when the bytes
on the command port are exactly one frame that decodes to a command `i`, the step is `exec` of `i` with the
action taken off the caller's list, and nothing else; a builder function is refused there (R25, R26). -/
def Obligations.StepRunsTheDecodedInstruction : Prop :=
  ∀ (s : State) (bytes : List Byte) (rest : List CallerAction) (i : Instr),
    s.caller = .encoded bytes :: rest → decode bytes = .ok (i, []) →
    (isCommand i = true → step s = exec i { s with caller := rest }) ∧
      (isCommand i = false → step s = .refused .notACommand)

/-- The command port carries nothing but commands (R25, R26): whatever stands on it, a step that answers a next
state has run one of the sixteen, and none of the builder functions. -/
def Obligations.CommandPortRunsOnlyCommands : Prop :=
  ∀ (s t : State) (a : CallerAction) (rest : List CallerAction), s.caller = a :: rest →
    ((∃ i, a = .command i) ∨ ∃ bytes, a = .encoded bytes) → step s = .next t →
    ∃ i, isCommand i = true ∧ exec i { s with caller := rest } = .next t

/-- A builder function evaluated by itself, outside the ports (log 2, the model's choice): the step is its
`exec`; a command is refused there. -/
def Obligations.StepEvaluatesABuilderFunction : Prop :=
  ∀ (s : State) (i : Instr) (rest : List CallerAction), s.caller = .evaluate i :: rest →
    (isCommand i = false → step s = exec i { s with caller := rest }) ∧
      (isCommand i = true → step s = .refused .notAFunction)

/-- A table word placed to run next runs (log 11, the model's choice): when the decoder reads `i` from it, the
step is `exec` of `i` on the opened link. -/
def Obligations.StepRunsThePlacedTableWord : Prop :=
  ∀ (s : State) (nbits w : Nat) (i : Instr), decodeTableWord nbits w = some i →
    step (s.withFetchWord nbits w) = exec i { s with link := .opened }

/-- R11, R25, R26, R76: a step runs the command on the port, and refuses a builder function there. -/
def Obligations.StepRunsThePresentedCommand : Prop :=
  ∀ (s : State) (i : Instr) (rest : List CallerAction), s.caller = .command i :: rest →
    (isCommand i = true → step s = exec i { s with caller := rest }) ∧
      (isCommand i = false → step s = .refused .notACommand)

/-- R224, U12: two commands presented at once are refused (the spec's decision D24). -/
def Obligations.TwoCommandsAtOnceAreRefused : Prop :=
  ∀ (s : State) (i j : Instr) (rest : List CallerAction), s.caller = .together i j :: rest →
    step s = .refused .concurrentCommands

/-- R218, 95_test_vectors.md X25: any command issued while the link is closed is refused (the spec's decision
D19), before any other check (log 3, the model's choice). -/
def Obligations.CommandOnAClosedLinkIsRefused : Prop :=
  ∀ (i : Instr) (s : State), isCommand i = true → s.link = .closed → exec i s = .refused .linkNotOpen

/-- R218, R186, R208, R219: opening a closed link hands the transport the caller's choice with no parity, one
stop bit and eight data bits, once; an accepted open leaves the link open, a failed one leaves it closed and
reports TransportUnavailable; nothing else changes but the transport's answer used up. Where `open` reports
(log 7) is the model's choice. -/
def Obligations.OpeningTheLink : Prop :=
  ∀ (s : State) (config : LinkConfig) (rest : List CallerAction),
    s.caller = .openLink config :: rest → s.link = .closed →
    ∃ t, step s = .next t ∧ t.caller = rest ∧ t.policy = s.policy ∧ t.maxBatch = s.maxBatch ∧
      t.frame = none ∧ t.answers = s.answers.tail ∧ t.asked = s.asked + 1 ∧
      t.calls = s.calls ++ [.openLink
        { chosen := config, parity := .none, stopBits := 1, dataBits := 8 } (nextAnswer s)] ∧
      (nextAnswer s = .accepted → t.link = .opened ∧ t.resultPort = none) ∧
      (nextAnswer s = .failed → t.link = .closed ∧ t.resultPort = some .transportUnavailable)

/-- R218, R205, R212: closing an open link leaves it closed, and with no action pending a step changes nothing
but the two output fields (log 6). -/
def Obligations.ClosingAndIdling : Prop :=
  (∀ (s : State) (rest : List CallerAction), s.caller = .closeLink :: rest → s.link = .opened →
    step s = .next { s with caller := rest, link := .closed, frame := none, resultPort := none,
                            calls := s.calls ++ [.close] }) ∧
  (∀ s : State, s.caller = [] → step s = .next { s with frame := none, resultPort := none })

/-- R12, R197, R141, R80, R196: every step keeps the invariant, from every state that has it. -/
def Obligations.StepKeepsTheInvariant : Prop :=
  ∀ s t : State, s.Inv → step s = .next t → t.Inv

/-- The invariant holds at reset. -/
def Obligations.ResetHasTheInvariant : Prop := State.reset.Inv

/-- R218, R50: only the caller's open and close move the link. From every state, what a step adds to the calls
accounts for the link it leaves. -/
def Obligations.LinkFollowsTheCallersCalls : Prop :=
  ∀ s t : State, step s = .next t →
    ∃ more, t.calls = s.calls ++ more ∧ t.link = linkAfter s.link more

/-- R27, R76, R78: the sequence of frames. Over any number of steps the calls made earlier stand unchanged
before the later ones, and every action adds at most one write. -/
def Obligations.RunsOnlyAppendCalls : Prop :=
  ∀ (n : Nat) (s t : State), core.run n s = .next t →
    ∃ more, t.calls = s.calls ++ more ∧
      (more.filter isWrite).length ≤ n

/-- R209, P1: when no write among the calls failed, the link carries exactly the frames, in order, with no byte
between them. -/
def Obligations.LinkCarriesTheAcceptedFrames : Prop :=
  ∀ (k : Nat) (calls : List TransportCall),
    (∀ bytes, TransportCall.write bytes .failed ∉ calls) →
    receivedBytes k calls =
      calls.flatMap writtenBytes
end

