-- ==== Sys2Proof/Laws/Decode.lean ====
section
/-! SUPPORT. One lemma per function of the decoder: when a row claims seven header bytes, and what `decode`
answers on header bytes, payload, checksum byte and rest. -/

namespace Sys2Proof

/-- Masking with all ones keeps a byte. -/
theorem byte_and_ones (b : Byte) : b &&& 0xFF = b := by
  have h : ∀ b : Byte, b &&& 0xFF = b := by decide
  exact h b

/-- Masking with zero clears a byte. -/
theorem byte_and_zero (b : Byte) : b &&& 0 = 0 := by
  have h : ∀ b : Byte, b &&& 0 = 0 := by decide
  exact h b

/-- A SHORT row claims exactly the frames with its five fixed bytes behind the id (R98). -/
theorem shortRow_claims (name : RowName) (fl ad len cnt id fl' ad' len' cnt' : Byte) :
    (shortRow name fl ad len cnt).claims [0xFA, 0xAF, id, fl', ad', len', cnt'] =
      decide (fl' = fl ∧ ad' = ad ∧ len' = len ∧ cnt' = cnt) := by
  simp only [OpRow.claims, shortRow, List.zipWith, byte_and_ones, byte_and_zero]
  congr 1
  simp

/-- A LONG row claims exactly the frames with id and flags 0 and its address and length (R98). -/
theorem longRow_claims (name : RowName) (ad len id fl' ad' len' cnt' : Byte) :
    (longRow name ad len).claims [0xFA, 0xAF, id, fl', ad', len', cnt'] =
      decide (id = 0 ∧ fl' = 0 ∧ ad' = ad ∧ len' = len) := by
  simp only [OpRow.claims, longRow, List.zipWith, byte_and_ones, byte_and_zero]
  congr 1
  simp

/-- The format row BUILD_LONG claims every frame with id and flags 0 (R98). -/
theorem buildLongRow_claims (id fl ad len cnt : Byte) :
    (OpRow.mk .buildLong [0xFA, 0xAF, 0, 0, 0, 0, 0] [0xFF, 0xFF, 0xFF, 0xFF, 0, 0, 0]).claims
      [0xFA, 0xAF, id, fl, ad, len, cnt] = decide (id = 0 ∧ fl = 0) := by
  simp only [OpRow.claims, List.zipWith, byte_and_ones, byte_and_zero]
  congr 1
  simp

/-- The format row BUILD_SHORT claims every frame with the header (R98). -/
theorem buildShortRow_claims (id fl ad len cnt : Byte) :
    (OpRow.mk .buildShort [0xFA, 0xAF, 0, 0, 0, 0, 0] [0xFF, 0xFF, 0, 0, 0, 0, 0]).claims
      [0xFA, 0xAF, id, fl, ad, len, cnt] = true := by
  simp only [OpRow.claims, List.zipWith, byte_and_ones, byte_and_zero]
  simp

/-- What `decode` answers when the row, the payload length and the operands are known. -/
theorem decode_of_row {h0 h1 id fl ad len cnt c : Byte} {payload rest : List Byte} {row : RowName}
    {i : Instr} (hrow : classify [h0, h1, id, fl, ad, len, cnt] = some row)
    (hlen : payload.length = payloadLength row len cnt)
    (hops : operandsOf row id fl ad len cnt payload = .ok i) :
    decode (h0 :: h1 :: id :: fl :: ad :: len :: cnt :: (payload ++ c :: rest)) = .ok (i, rest) := by
  simp only [decode, hrow]
  rw [← hlen, if_neg (by simp), List.take_left, hops]
  have h : payload ++ c :: rest = (payload ++ [c]) ++ rest := by simp
  rw [h, show payload.length + 1 = (payload ++ [c]).length by simp, List.drop_left]

end Sys2Proof
end

