-- ==== Sys2Proof/Laws/State.lean ====
section
/-! SUPPORT. One lemma per field and update of State. -/

namespace Sys2Proof.Machine

variable (s : State) (e : Result) (f : Frame)

@[simp] theorem idle_policy : (idle s).policy = s.policy := rfl
@[simp] theorem idle_maxBatch : (idle s).maxBatch = s.maxBatch := rfl
@[simp] theorem idle_link : (idle s).link = s.link := rfl
@[simp] theorem idle_caller : (idle s).caller = s.caller := rfl
@[simp] theorem idle_frame : (idle s).frame = none := rfl
@[simp] theorem idle_resultPort : (idle s).resultPort = none := rfl
@[simp] theorem idle_calls : (idle s).calls = s.calls := rfl
@[simp] theorem idle_answers : (idle s).answers = s.answers := rfl
@[simp] theorem idle_asked : (idle s).asked = s.asked := rfl

@[simp] theorem raise_policy : (raise e s).policy = s.policy := rfl
@[simp] theorem raise_maxBatch : (raise e s).maxBatch = s.maxBatch := rfl
@[simp] theorem raise_link : (raise e s).link = s.link := rfl
@[simp] theorem raise_caller : (raise e s).caller = s.caller := rfl
@[simp] theorem raise_frame : (raise e s).frame = none := rfl
@[simp] theorem raise_resultPort : (raise e s).resultPort = some e := rfl
@[simp] theorem raise_calls : (raise e s).calls = s.calls := rfl
@[simp] theorem raise_answers : (raise e s).answers = s.answers := rfl
@[simp] theorem raise_asked : (raise e s).asked = s.asked := rfl

@[simp] theorem answered_policy : (answered s).policy = s.policy := rfl
@[simp] theorem answered_maxBatch : (answered s).maxBatch = s.maxBatch := rfl
@[simp] theorem answered_link : (answered s).link = s.link := rfl
@[simp] theorem answered_caller : (answered s).caller = s.caller := rfl
@[simp] theorem answered_frame : (answered s).frame = s.frame := rfl
@[simp] theorem answered_resultPort : (answered s).resultPort = s.resultPort := rfl
@[simp] theorem answered_calls : (answered s).calls = s.calls := rfl
@[simp] theorem answered_answers : (answered s).answers = s.answers.tail := rfl
@[simp] theorem answered_asked : (answered s).asked = s.asked + 1 := rfl

@[simp] theorem handedOver_policy : (handedOver f s).policy = s.policy := rfl
@[simp] theorem handedOver_maxBatch : (handedOver f s).maxBatch = s.maxBatch := rfl
@[simp] theorem handedOver_link : (handedOver f s).link = s.link := rfl
@[simp] theorem handedOver_caller : (handedOver f s).caller = s.caller := rfl
@[simp] theorem handedOver_frame : (handedOver f s).frame = some f := rfl
@[simp] theorem handedOver_resultPort :
    (handedOver f s).resultPort = some (emitResult (nextAnswer s)) := rfl
@[simp] theorem handedOver_calls :
    (handedOver f s).calls = s.calls ++ emitCalls f.bytes (nextAnswer s) := rfl
@[simp] theorem handedOver_answers : (handedOver f s).answers = s.answers.tail := rfl
@[simp] theorem handedOver_asked : (handedOver f s).asked = s.asked + 1 := rfl

/-! What the transport answers next depends on its two fields alone. -/

@[simp] theorem nextAnswer_withCaller (c : List CallerAction) :
    nextAnswer { s with caller := c } = nextAnswer s := rfl
@[simp] theorem nextAnswer_withPolicy (p : RangePolicy) :
    nextAnswer { s with policy := p } = nextAnswer s := rfl

@[simp] theorem nextAnswer_scripted (a : TransportAnswer) (rest : List TransportAnswer)
    (h : s.answers = a :: rest) : nextAnswer s = a := by
  simp [nextAnswer, h]

end Sys2Proof.Machine
end

