-- ==== Sys2Proof/Laws/Ops.lean ====
section
/-! SUPPORT. One lemma per shared operation: everything it can do. -/

namespace Sys2Proof.Machine

/-- The XOR of a sequence with one more byte at its end (R113). -/
theorem xorBytes_append_single (bytes : List Byte) (b : Byte) :
    xorBytes (bytes ++ [b]) = xorBytes bytes ^^^ b := by
  simp [xorBytes]

/-- A frame's wire bytes are its body and then its checksum (R85). -/
theorem Frame.bytes_eq (f : Frame) : f.bytes = f.body ++ [f.checksum] := by
  simp [Frame.bytes, Frame.body]

/-- Sealing always succeeds: a frame's body is long enough for CHECKSUM (R111). -/
theorem Frame.sealed_eq (f : Frame) :
    f.sealed = some { f with checksum := xorBytes (f.body.drop 2) } := by
  simp [Frame.sealed, Sys2Proof.Machine.checksum, Frame.body]

/-- A sealed frame's bytes cancel from offset 2 on. -/
theorem Frame.residue_of_sealed (f : Frame) :
    xorBytes (({ f with checksum := xorBytes (f.body.drop 2) } : Frame).bytes.drop 2) = 0 := by
  have h : ({ f with checksum := xorBytes (f.body.drop 2) } : Frame).bytes.drop 2 =
      f.body.drop 2 ++ [xorBytes (f.body.drop 2)] := by
    simp [Frame.bytes, Frame.body]
  rw [h, xorBytes_append_single]
  exact BitVec.xor_self

/-- BUILD_SHORT answers only well-formed frames (R130). -/
theorem buildShort_wellFormed {id flags address width data f}
    (h : buildShort id flags address width data = some f) : f.WellFormed := by
  unfold buildShort at h
  split at h
  · next hlen =>
    rw [Frame.sealed_eq, Option.some.injEq] at h
    subst h
    exact ⟨⟨rfl, rfl⟩, .inl ⟨hlen, rfl⟩, Frame.residue_of_sealed _⟩
  · cases h

/-- BUILD_LONG answers only well-formed frames (R137). -/
theorem buildLong_wellFormed {address width count data f}
    (h : buildLong address width count data = some f) : f.WellFormed := by
  unfold buildLong at h
  split at h
  · next hlen =>
    rw [Frame.sealed_eq, Option.some.injEq] at h
    subst h
    exact ⟨⟨rfl, rfl⟩, .inr ⟨rfl, rfl, hlen⟩, Frame.residue_of_sealed _⟩
  · cases h

/-- `emit` answers a next state only on an open link, by handing the frame over. -/
theorem emit_next {f s t} (h : emit f s = .next t) : s.link = .opened ∧ t = handedOver f s := by
  unfold emit at h
  split at h
  · next hl => exact ⟨hl, by cases h; rfl⟩
  · cases h

/-- What handing over a builder's answer can do. -/
theorem emitBuilt_next {b s t} (h : emitBuilt b s = .next t) :
    ∃ f, b = some f ∧ s.link = .opened ∧ t = handedOver f s := by
  cases b with
  | none => cases h
  | some f => exact ⟨f, rfl, emit_next h⟩

/-- What the catalog path can do: reject out of bounds, or hand over a well-formed frame (R149). -/
theorem catalogCommand_next {i d id payload s t} (h : catalogCommand i d id payload s = .next t) :
    s.link = .opened ∧
      ((rejects i s = true ∧ t = raise .outOfRangeParameter s) ∨
        (rejects i s = false ∧ ∃ f, buildShort id d.flags d.address d.payloadWidth payload = some f ∧
          t = handedOver f s)) := by
  unfold catalogCommand at h
  split at h
  · cases h
  · next hl =>
    refine ⟨by simpa using hl, ?_⟩
    split at h
    · next hr => exact .inl ⟨hr, by cases h; rfl⟩
    · next hr =>
      obtain ⟨f, hf, -, ht⟩ := emitBuilt_next h
      exact .inr ⟨by simpa using hr, f, hf, ht⟩

/-- What the batch path can do (R170), the checks in their order (R194). -/
theorem batchCommand_next {i address width arity list data s t}
    (h : batchCommand i address width arity list data s = .next t) :
    s.link = .opened ∧
      ((list.length % arity ≠ 0 ∧ t = raise .malformedBatchInput s) ∨
        (list.length % arity = 0 ∧ (list.length / arity > s.maxBatch ∨ rejects i s = true) ∧
          t = raise .outOfRangeParameter s) ∨
        (list.length % arity = 0 ∧ list.length / arity ≤ s.maxBatch ∧ rejects i s = false ∧
          ∃ f, buildLong address width (BitVec.ofNat 8 (list.length / arity)) data = some f ∧
            t = handedOver f s)) := by
  unfold batchCommand at h
  split at h
  · cases h
  · next hl =>
    refine ⟨by simpa using hl, ?_⟩
    split at h
    · next ha => exact .inl ⟨ha, by cases h; rfl⟩
    · next ha =>
      have ha : list.length % arity = 0 := by simpa using ha
      split at h
      · next hc => exact .inr (.inl ⟨ha, .inl hc, by cases h; rfl⟩)
      · next hc =>
        split at h
        · next hr => exact .inr (.inl ⟨ha, .inr hr, by cases h; rfl⟩)
        · next hr =>
          obtain ⟨f, hf, -, ht⟩ := emitBuilt_next h
          exact .inr (.inr ⟨ha, by omega, by simpa using hr, f, hf, ht⟩)

/-- What evaluating a builder can do (log 2). -/
theorem evaluateBuilder_next {b s t} (h : evaluateBuilder b s = .next t) :
    ∃ f, b = some f ∧ t = { s with frame := some f, resultPort := none } := by
  cases b with
  | none => cases h
  | some f => exact ⟨f, rfl, by cases h; rfl⟩

/-- What opening the link can do (R218). -/
theorem openTransport_next {config s t} (h : openTransport config s = .next t) :
    s.link = .closed ∧
      t = { answered s with
            link := openedLink (nextAnswer s), frame := none, resultPort := openResult (nextAnswer s),
            calls := s.calls ++ [.openLink (transportConfig config) (nextAnswer s)] } := by
  unfold openTransport at h
  split at h
  · next hl => exact ⟨hl, by cases h; rfl⟩
  · cases h

/-- What closing the link can do (R218). -/
theorem closeTransport_next {s t} (h : closeTransport s = .next t) :
    s.link = .opened ∧ t = { idle s with link := .closed, calls := s.calls ++ [.close] } := by
  unfold closeTransport at h
  split at h
  · next hl => exact ⟨hl, by cases h; rfl⟩
  · cases h

/-- The three things an instruction can do when it answers a next state: end in an encoding error, hand over a
well-formed frame, or, for the two builder functions, construct one. -/
inductive ExecNext (i : Instr) (s : State) : State → Prop where
  | raised (e : Result) (he : e = .malformedBatchInput ∨ e = .outOfRangeParameter)
      (hc : isCommand i = true) (hl : s.link = .opened) : ExecNext i s (raise e s)
  | sent (f : Frame) (hf : f.WellFormed) (hc : isCommand i = true) (hl : s.link = .opened) :
      ExecNext i s (handedOver f s)
  | built (f : Frame) (hf : f.WellFormed) (hc : isCommand i = false) :
      ExecNext i s { s with frame := some f, resultPort := none }

theorem execNext_of_catalog {i d id payload s t} (hc : isCommand i = true)
    (h : catalogCommand i d id payload s = .next t) : ExecNext i s t := by
  obtain ⟨hl, ⟨-, rfl⟩ | ⟨-, f, hf, rfl⟩⟩ := catalogCommand_next h
  · exact .raised _ (.inr rfl) hc hl
  · exact .sent f (buildShort_wellFormed hf) hc hl

theorem execNext_of_batch {i address width arity list data s t} (hc : isCommand i = true)
    (h : batchCommand i address width arity list data s = .next t) : ExecNext i s t := by
  obtain ⟨hl, ⟨-, rfl⟩ | ⟨-, -, rfl⟩ | ⟨-, -, -, f, hf, rfl⟩⟩ := batchCommand_next h
  · exact .raised _ (.inl rfl) hc hl
  · exact .raised _ (.inr rfl) hc hl
  · exact .sent f (buildLong_wellFormed hf) hc hl

/-- Everything `exec` can do when it answers a next state. -/
theorem exec_next {i s t} (h : exec i s = .next t) : ExecNext i s t := by
  cases i with
  | torqueBatch list => exact execNext_of_batch rfl h
  | moveBatch list => exact execNext_of_batch rfl h
  | buildShort id flags address width data =>
    obtain ⟨f, hf, rfl⟩ := evaluateBuilder_next h
    exact .built f (buildShort_wellFormed hf) rfl
  | buildLong address width count data =>
    obtain ⟨f, hf, rfl⟩ := evaluateBuilder_next h
    exact .built f (buildLong_wellFormed hf) rfl
  | _ => exact execNext_of_catalog rfl h

/-- What issuing an instruction on the command port can do (R25). -/
theorem issue_next {i s t} (h : issue i s = .next t) : isCommand i = true ∧ exec i s = .next t := by
  unfold issue at h
  split at h
  · next hc => exact ⟨hc, h⟩
  · cases h

/-- What bytes on the command port can do (log 1). -/
theorem issueEncoded_next {bytes s t} (h : issueEncoded bytes s = .next t) :
    ∃ i, decodeWhole bytes = some i ∧ isCommand i = true ∧ exec i s = .next t := by
  unfold issueEncoded at h
  split at h
  · next i hi => exact ⟨i, hi, issue_next h⟩
  · cases h

/-- What evaluating an instruction outside the ports can do (R26). -/
theorem evaluate_next {i s t} (h : evaluate i s = .next t) : isCommand i = false ∧ exec i s = .next t := by
  unfold evaluate at h
  split at h
  · cases h
  · next hc => exact ⟨by simpa using hc, h⟩

/-- Everything `step` can do when it answers a next state. -/
inductive StepNext (s : State) : State → Prop where
  | idled (h : s.caller = []) : StepNext s (idle s)
  | openedBy (config : LinkConfig) (rest : List CallerAction) (t : State)
      (h : s.caller = .openLink config :: rest)
      (ht : openTransport config { s with caller := rest } = .next t) : StepNext s t
  | closedBy (rest : List CallerAction) (t : State) (h : s.caller = .closeLink :: rest)
      (ht : closeTransport { s with caller := rest } = .next t) : StepNext s t
  | ran (i : Instr) (a : CallerAction) (rest : List CallerAction) (t : State)
      (h : s.caller = a :: rest) (hp : isCommand i = true ∨ a = .evaluate i)
      (ht : exec i { s with caller := rest } = .next t) : StepNext s t

theorem step_next {s t} (h : step s = .next t) : StepNext s t := by
  unfold step at h
  split at h
  · next hc => cases h; exact .idled hc
  · next config rest hc => exact .openedBy config rest t hc h
  · next rest hc => exact .closedBy rest t hc h
  · next i rest hc =>
    obtain ⟨hp, ht⟩ := issue_next h
    exact .ran i _ rest t hc (.inl hp) ht
  · cases h
  · next bytes rest hc =>
    obtain ⟨i, -, hp, ht⟩ := issueEncoded_next h
    exact .ran i _ rest t hc (.inl hp) ht
  · next i rest hc => exact .ran i _ rest t hc (.inr rfl) (evaluate_next h).2

end Sys2Proof.Machine
end

