-- ==== Sys2Proof/Laws/PerInstr.lean ====
section
/-! SUPPORT. A law of every instruction as syntax: its table encoding is header, at least the five header
fields, and the XOR of what stands between (R85, R110: the body CHECKSUM is given has at least 7 bytes). -/

namespace Sys2Proof.Laws.EncodeShape

open Sys2Proof.Machine

/-- The frame of the instruction is framed from a body that holds at least servoId, flags, address, length and
count. -/
def Statement (i : Instr) : Prop := ∃ body : List Byte, 5 ≤ body.length ∧ encode i = framed body

theorem of_short (id : Int) (flags address length count : Byte) (payload : List Byte) :
    ∃ body : List Byte, 5 ≤ body.length ∧ shortFrame id flags address length count payload = framed body :=
  ⟨_, by simp, rfl⟩

theorem of_long (address length count : Byte) (payload : List Byte) :
    ∃ body : List Byte, 5 ≤ body.length ∧ longFrame address length count payload = framed body :=
  ⟨_, by simp, rfl⟩

theorem writeFlashRom (id : Int) : Statement (.writeFlashRom id) := of_short ..
theorem reboot (id : Int) : Statement (.reboot id) := of_short ..
theorem factoryReset (id : Int) : Statement (.factoryReset id) := of_short ..
theorem setId (id newId : Int) : Statement (.setId id newId) := of_short ..
theorem setReverse (id rev : Int) : Statement (.setReverse id rev) := of_short ..
theorem setBaudrate (id index : Int) : Statement (.setBaudrate id index) := of_short ..
theorem setReturnDelay (id delay : Int) : Statement (.setReturnDelay id delay) := of_short ..
theorem setAngleLimit (id cwLimit ccwLimit : Int) : Statement (.setAngleLimit id cwLimit ccwLimit) :=
  of_short ..
theorem setTempLimit (id limit : Int) : Statement (.setTempLimit id limit) := of_short ..
theorem setCompliance (id cwMargin ccwMargin cwSlope ccwSlope punch : Int) :
    Statement (.setCompliance id cwMargin ccwMargin cwSlope ccwSlope punch) := of_short ..
theorem setMove (id pos time : Int) : Statement (.setMove id pos time) := of_short ..
theorem setMaxTorque (id pct : Int) : Statement (.setMaxTorque id pct) := of_short ..
theorem setTorque (id mode : Int) : Statement (.setTorque id mode) := of_short ..
theorem setPID (id coef : Int) : Statement (.setPID id coef) := of_short ..
theorem torqueBatch (list : List Int) : Statement (.torqueBatch list) := of_long ..
theorem moveBatch (list : List Int) : Statement (.moveBatch list) := of_long ..
theorem buildShort (id : Int) (flags address width : Byte) (data : List Byte) :
    Statement (.buildShort id flags address width data) := of_short ..
theorem buildLong (address width count : Byte) (data : List Byte) :
    Statement (.buildLong address width count data) := of_long ..

end Sys2Proof.Laws.EncodeShape
end

