-- ==== Sys2Proof/Laws/Run.lean ====
section
/-! SUPPORT. Runs of the machine, one step at a time. -/

namespace Sys2Proof.Machine

/-- A run of one step more that ends in a state took a step to a state and ran on from there. Stated for any
machine, since `core` hides its state type. -/
theorem run_succ_next_of (M : Host.Core) {n : Nat} {s t : M.State} (h : M.run (n + 1) s = .next t) :
    ∃ u, M.step s = .next u ∧ M.run n u = .next t := by
  rw [Host.Core.run] at h
  split at h
  · next u hu => exact ⟨u, hu, h⟩
  · cases h
  · cases h

/-- The same for this machine. -/
theorem run_succ_next {n : Nat} {s t : State} (h : core.run (n + 1) s = .next t) :
    ∃ u, step s = .next u ∧ core.run n u = .next t :=
  run_succ_next_of core h

/-- A run of no step stays where it is. -/
theorem run_zero (s : State) : core.run 0 s = .next s := rfl

end Sys2Proof.Machine
end

