-- ==== Sys2Proof/Tests/Slice0.lean ====
section
/-! SUPPORT. Tests of the model against the spec's own vectors (spec/95_test_vectors.md, named in each
comment), the smoke test of WellFormed, and for each obligation with hypotheses a witness that meets them. -/

namespace Sys2Proof.Tests

open Sys2Proof.Machine

/-- The link open, defaults, the next transport answer scripted as accepted. -/
def ready : State := { State.reset with link := .opened, answers := [.accepted] }

/-- The same under `reject`. -/
def strict : State := { ready with policy := .reject }

/-- The same with a transport that fails the next call. -/
def failing : State := { ready with answers := [.failed] }

/-- The same with `MAX_BATCH = 2`. -/
def small : State := { ready with maxBatch := 2 }

/-- Result and frame bytes of a next state. -/
def seen : Outcome → Option (Option Result × List Byte)
  | .next t => some (t.resultPort, (t.frame.map Frame.bytes).getD [])
  | .fault _ => none
  | .refused _ => none

/-- Result and transport calls of a next state. -/
def called : Outcome → Option (Option Result × List TransportCall)
  | .next t => some (t.resultPort, t.calls)
  | .fault _ => none
  | .refused _ => none

/-- The reason of a refusal. -/
def reason : Outcome → Option Refusal
  | .refused r => some r
  | .next _ => none
  | .fault _ => none

/-- Is it a next state? (Needs no value of the transport's free answer.) -/
def goesOn : Outcome → Bool
  | .next _ => true
  | .fault _ => false
  | .refused _ => false

/-! ### WellFormed refuses what a frame cannot carry -/

theorem test_wf_refuses_byte : Instr.wf (.reboot 256) = false := by decide
theorem test_wf_refuses_negative_byte : Instr.wf (.setTorque 1 (-1)) = false := by decide
theorem test_wf_refuses_unsigned16 : Instr.wf (.setTempLimit 1 65536) = false := by decide
theorem test_wf_refuses_signed16 : Instr.wf (.setMove 1 32768 0) = false := by decide
theorem test_wf_refuses_torque_shape : Instr.wf (.torqueBatch [1, 1, 2]) = false := by decide
theorem test_wf_refuses_torque_value : Instr.wf (.torqueBatch [1, 256]) = false := by decide
theorem test_wf_refuses_move_shape : Instr.wf (.moveBatch [1, 0]) = false := by decide
theorem test_wf_refuses_move_one_scalar : Instr.wf (.moveBatch [1]) = false := by decide
theorem test_wf_refuses_move_value : Instr.wf (.moveBatch [1, -32769, 0]) = false := by decide
theorem test_wf_refuses_move_duration : Instr.wf (.moveBatch [1, 0, -1]) = false := by decide
set_option maxRecDepth 8000 in
theorem test_wf_refuses_long_torque_list : Instr.wf (.torqueBatch (List.replicate 512 1)) = false := by decide
set_option maxRecDepth 8000 in
theorem test_wf_refuses_long_move_list : Instr.wf (.moveBatch (List.replicate 768 1)) = false := by decide
theorem test_wf_refuses_short_length : Instr.wf (.buildShort 1 0x80 0x24 1 []) = false := by decide
theorem test_wf_refuses_short_as_long : Instr.wf (.buildShort 0 0 0x2A 0 []) = false := by decide
theorem test_wf_refuses_short_of_a_row : Instr.wf (.buildShort 1 0 0x24 1 [1]) = false := by decide
theorem test_wf_refuses_long_length : Instr.wf (.buildLong 0x24 3 2 [1]) = false := by decide
theorem test_wf_refuses_long_of_a_row : Instr.wf (.buildLong 0x24 2 0 []) = false := by decide
/-- B12: this long frame is the bytes of `setTorque(0, 1)`. -/
theorem test_wf_refuses_long_as_short_row : Instr.wf (.buildLong 0x24 1 1 [1]) = false := by decide

/-! ### Decoding: a word written out for every row (R97, part 5, part 6, part 4) -/

theorem test_decode_writeFlashRom :
    decode [0xFA, 0xAF, 0x7F, 0x40, 0xFF, 0x00, 0x00, 0xC0] = .ok (.writeFlashRom 127, []) := by decide
theorem test_decode_reboot :
    decode [0xFA, 0xAF, 0x05, 0x20, 0xFF, 0x00, 0x00, 0xDA] = .ok (.reboot 5, []) := by decide
theorem test_decode_factoryReset :
    decode [0xFA, 0xAF, 0x01, 0x10, 0xFF, 0x00, 0x00, 0xEE] = .ok (.factoryReset 1, []) := by decide
theorem test_decode_setId :
    decode [0xFA, 0xAF, 0x01, 0x00, 0x04, 0x01, 0x01, 0x02, 0x07] = .ok (.setId 1 2, []) := by decide
theorem test_decode_setReverse :
    decode [0xFA, 0xAF, 0x01, 0x00, 0x05, 0x01, 0x01, 0x01, 0x05] = .ok (.setReverse 1 1, []) := by decide
theorem test_decode_setBaudrate :
    decode [0xFA, 0xAF, 0x01, 0x00, 0x06, 0x01, 0x01, 0x07, 0x00] = .ok (.setBaudrate 1 7, []) := by decide
theorem test_decode_setReturnDelay :
    decode [0xFA, 0xAF, 0x03, 0x00, 0x07, 0x01, 0x01, 0xFF, 0xFB] = .ok (.setReturnDelay 3 255, []) := by
  decide
theorem test_decode_setAngleLimit :
    decode [0xFA, 0xAF, 0x01, 0x00, 0x08, 0x04, 0x01, 0xDC, 0x05, 0x24, 0xFA, 0x0B] =
      .ok (.setAngleLimit 1 0x05DC 0xFA24, []) := by decide
theorem test_decode_setTempLimit :
    decode [0xFA, 0xAF, 0x01, 0x00, 0x0E, 0x02, 0x01, 0x34, 0x12, 0x2A] = .ok (.setTempLimit 1 0x1234, []) := by
  decide
theorem test_decode_setCompliance :
    decode [0xFA, 0xAF, 0x09, 0x00, 0x18, 0x06, 0x01, 0x01, 0x02, 0x03, 0x04, 0x34, 0x12, 0x34] =
      .ok (.setCompliance 9 1 2 3 4 0x1234, []) := by decide
theorem test_decode_setMove :
    decode [0xFA, 0xAF, 0x01, 0x00, 0x1E, 0x04, 0x01, 0x24, 0xFA, 0x50, 0x00, 0x94] =
      .ok (.setMove 1 (-1500) 80, []) := by decide
theorem test_decode_setMaxTorque :
    decode [0xFA, 0xAF, 0x01, 0x00, 0x23, 0x01, 0x01, 0x64, 0x46] = .ok (.setMaxTorque 1 100, []) := by decide
theorem test_decode_setTorque :
    decode [0xFA, 0xAF, 0x7F, 0x00, 0x24, 0x01, 0x01, 0x01, 0x5A] = .ok (.setTorque 127 1, []) := by decide
theorem test_decode_setPID :
    decode [0xFA, 0xAF, 0x02, 0x00, 0x26, 0x01, 0x01, 0x00, 0x24] = .ok (.setPID 2 0, []) := by decide
theorem test_decode_torqueBatch :
    decode [0xFA, 0xAF, 0x00, 0x00, 0x24, 0x02, 0x02, 0x05, 0x02, 0x7F, 0x01, 0x5D] =
      .ok (.torqueBatch [5, 2, 127, 1], []) := by decide
theorem test_decode_moveBatch :
    decode [0xFA, 0xAF, 0x00, 0x00, 0x1E, 0x05, 0x01, 0x7F, 0xDC, 0x05, 0xFF, 0x3F, 0x7C] =
      .ok (.moveBatch [127, 1500, 16383], []) := by decide
/-- B10. -/
theorem test_decode_buildShort :
    decode [0xFA, 0xAF, 0x01, 0x80, 0x24, 0x01, 0x00, 0x01, 0xA5] =
      .ok (.buildShort 1 0x80 0x24 1 [0x01], []) := by decide
theorem test_decode_buildLong :
    decode [0xFA, 0xAF, 0x00, 0x00, 0x2A, 0x01, 0x02, 0x05, 0x06, 0x2A] =
      .ok (.buildLong 0x2A 1 2 [0x05, 0x06], []) := by decide
/-- Two frames back to back (P1): the second is left. -/
theorem test_decode_leaves_the_rest :
    decode [0xFA, 0xAF, 0x01, 0x20, 0xFF, 0x00, 0x00, 0xDE, 0xFA, 0xAF] = .ok (.reboot 1, [0xFA, 0xAF]) := by
  decide
theorem test_decode_refuses_short_input :
    decode [0xFA, 0xAF, 0x01, 0x00, 0x24, 0x01, 0x01, 0x01] = .error .truncated := by decide
theorem test_decode_refuses_header :
    decode [0xAF, 0xFA, 0x01, 0x00, 0x24, 0x01, 0x01, 0x01, 0x24] = .error .badHeader := by decide
/-- R132: flags `0x00` go with count 1; no row has `00 24 01 00`. -/
theorem test_decode_refuses_count :
    decode [0xFA, 0xAF, 0x05, 0x00, 0x24, 0x01, 0x00, 0x01, 0x21] = .error .badCount := by decide
theorem test_decode_refuses_move_payload :
    operandsOf .moveBatch 0 0 0x1E 0x05 0x01 [0x01] = .error .badPayload := by decide

/-- A table word in the order R98 prints it, and with byte 0 in the low bits (log 10). -/
theorem test_table_word_high_first : decodeTableWord 56 0xFAAF0000240101 = some (.setTorque 0 0) := by decide
theorem test_table_word_low_first : decodeTableWord 56 0x0101240000AFFA = some (.setTorque 0 0) := by decide
theorem test_table_word_batch : decodeTableWord 56 0xFAAF00001E0501 = some (.moveBatch [0, 0, 0]) := by decide
theorem test_fetch_word_runs :
    goesOn (step (State.reset.withFetchWord 56 0xFAAF0040FF0000)) = true := by decide
theorem test_fetch_word_builder :
    seen (step (State.reset.withFetchWord 56 0xFAAF0000000000)) =
      some (none, [0xFA, 0xAF, 0, 0, 0, 0, 0, 0]) := by decide

/-! ### Checksum, codec, count rule (parts 2, 3, 4) -/

/-- K1, K5, K7. -/
theorem test_checksum :
    checksum [0xFA, 0xAF, 0x5A] = some 0x5A ∧ checksum [0, 0, 0x01, 0x40, 0xFF, 0, 0] = some 0xBE ∧
      checksum [0xFA, 0xAF] = none := by decide
/-- E6, E8, E9. -/
theorem test_enc8 : enc8 258 = [0x02] ∧ enc8 (-1) = [0xFF] ∧ enc8 (-128) = [0x80] := by decide
/-- E12, E22, E23. -/
theorem test_enc16 :
    enc16 (-1500) = [0x24, 0xFA] ∧ enc16 (-32769) = [0xFF, 0x7F] ∧ enc16 70000 = [0x70, 0x11] := by decide
/-- E26, E27, E28, E30. -/
theorem test_decoders :
    dec8 0xFF = 255 ∧ dec16U 0x24 0xFA = 64036 ∧ dec16S 0x24 0xFA = -1500 ∧ dec16S 0x00 0x80 = -32768 := by
  decide
/-- B5, B8, B9, B10. -/
theorem test_count_rule :
    countRule 0x0F = 0 ∧ countRule 0x01 = 1 ∧ countRule 0x0E = 1 ∧ countRule 0x80 = 0 := by decide
/-- B11, B13, B14, B15. -/
theorem test_builders :
    (buildShort 1 0x10 0x24 1 [1]).map Frame.bytes =
      some [0xFA, 0xAF, 0x01, 0x10, 0x24, 0x01, 0x00, 0x01, 0x35] ∧
    (buildLong 0x24 2 0 []).map Frame.bytes = some [0xFA, 0xAF, 0x00, 0x00, 0x24, 0x02, 0x00, 0x26] ∧
    buildShort 1 0 0x24 1 [] = none ∧ buildLong 0x24 2 3 [1, 1, 2, 0] = none := by decide
theorem test_buildShort_row :
    seen (exec (.buildShort 1 0x4F 0xFF 0 []) State.reset) =
      some (none, [0xFA, 0xAF, 0x01, 0x4F, 0xFF, 0x00, 0x00, 0xB1]) := by decide
theorem test_buildLong_row_refuses :
    reason (exec (.buildLong 0x24 2 3 [1, 1, 2, 0]) State.reset) = some .builderDomain := by decide

/-! ### Commands (part 5, part 6), numbers as there -/

theorem test_O1 : seen (exec (.writeFlashRom 1) ready) =
    some (some .ok, [0xFA, 0xAF, 0x01, 0x40, 0xFF, 0x00, 0x00, 0xBE]) := by decide
theorem test_O4 : seen (exec (.reboot 5) ready) =
    some (some .ok, [0xFA, 0xAF, 0x05, 0x20, 0xFF, 0x00, 0x00, 0xDA]) := by decide
theorem test_O5 : seen (exec (.factoryReset 1) ready) =
    some (some .ok, [0xFA, 0xAF, 0x01, 0x10, 0xFF, 0x00, 0x00, 0xEE]) := by decide
theorem test_O37 : seen (exec (.setId 1 300) ready) =
    some (some .ok, [0xFA, 0xAF, 0x01, 0x00, 0x04, 0x01, 0x01, 0x2C, 0x29]) := by decide
theorem test_O7 : seen (exec (.setReverse 1 1) ready) =
    some (some .ok, [0xFA, 0xAF, 0x01, 0x00, 0x05, 0x01, 0x01, 0x01, 0x05]) := by decide
theorem test_O9 : seen (exec (.setBaudrate 1 7) ready) =
    some (some .ok, [0xFA, 0xAF, 0x01, 0x00, 0x06, 0x01, 0x01, 0x07, 0x00]) := by decide
theorem test_O11 : seen (exec (.setReturnDelay 3 255) ready) =
    some (some .ok, [0xFA, 0xAF, 0x03, 0x00, 0x07, 0x01, 0x01, 0xFF, 0xFB]) := by decide
theorem test_O12 : seen (exec (.setAngleLimit 1 defaultCwLimit defaultCcwLimit) ready) =
    some (some .ok, [0xFA, 0xAF, 0x01, 0x00, 0x08, 0x04, 0x01, 0xDC, 0x05, 0x24, 0xFA, 0x0B]) := by decide
theorem test_O14 : seen (exec (.setTempLimit 1 defaultTempLimit) ready) =
    some (some .ok, [0xFA, 0xAF, 0x01, 0x00, 0x0E, 0x02, 0x01, 0x37, 0x00, 0x3B]) := by decide
theorem test_O17 : seen (exec (.setCompliance 9 1 2 3 4 0x1234) ready) =
    some (some .ok, [0xFA, 0xAF, 0x09, 0x00, 0x18, 0x06, 0x01, 0x01, 0x02, 0x03, 0x04, 0x34, 0x12, 0x34]) := by
  decide
theorem test_O39 : seen (exec (.setMove 1 70000 65541) ready) =
    some (some .ok, [0xFA, 0xAF, 0x01, 0x00, 0x1E, 0x04, 0x01, 0x70, 0x11, 0x05, 0x00, 0x7E]) := by decide
theorem test_O23 : seen (exec (.setMaxTorque 1 defaultMaxTorque) ready) =
    some (some .ok, [0xFA, 0xAF, 0x01, 0x00, 0x23, 0x01, 0x01, 0x64, 0x46]) := by decide
theorem test_O32 : seen (exec (.setTorque 1 (-1)) ready) =
    some (some .ok, [0xFA, 0xAF, 0x01, 0x00, 0x24, 0x01, 0x01, 0xFF, 0xDA]) := by decide
theorem test_O29 : seen (exec (.setPID 1 defaultPID) ready) =
    some (some .ok, [0xFA, 0xAF, 0x01, 0x00, 0x26, 0x01, 0x01, 0x64, 0x43]) := by decide
theorem test_T1 : seen (exec (.torqueBatch [1, 1, 2, 0, 3, 1]) ready) =
    some (some .ok, [0xFA, 0xAF, 0, 0, 0x24, 0x02, 0x03, 0x01, 0x01, 0x02, 0x00, 0x03, 0x01, 0x25]) := by
  decide
theorem test_M1 : seen (exec (.moveBatch [1, 1500, 40, 2, -1500, 80]) ready) =
    some (some .ok, [0xFA, 0xAF, 0, 0, 0x1E, 0x05, 0x02, 0x01, 0xDC, 0x05, 0x28, 0x00, 0x02, 0x24, 0xFA, 0x50,
      0x00, 0x65]) := by decide
/-- O33, O38, O42, O46: what `reject` turns away and what it lets through. -/
theorem test_reject_mode : seen (exec (.setTorque 1 3) strict) = some (some .outOfRangeParameter, []) := by decide
theorem test_reject_newId : seen (exec (.setId 1 200) strict) = some (some .outOfRangeParameter, []) := by decide
theorem test_reject_limit :
    seen (exec (.setAngleLimit 1 1500 (-1500)) strict) = some (some .outOfRangeParameter, []) := by decide
theorem test_O46 : seen (exec (.setMove 1 1500 16383) strict) =
    some (some .ok, [0xFA, 0xAF, 0x01, 0x00, 0x1E, 0x04, 0x01, 0xDC, 0x05, 0xFF, 0x3F, 0x03]) := by decide

/-! ### Errors (part 7) -/

theorem test_X1 : called (exec (.torqueBatch [1, 1, 2, 0, 3]) ready) = some (some .malformedBatchInput, []) := by
  decide
theorem test_X10 : called (exec (.torqueBatch [1, 5, 2, 0, 3]) strict) = some (some .malformedBatchInput, []) := by
  decide
theorem test_X13 : called (exec (.torqueBatch []) strict) = some (some .outOfRangeParameter, []) := by decide
theorem test_X15 : called (exec (.torqueBatch [1, 1, 2, 1, 3, 1]) small) =
    some (some .outOfRangeParameter, []) := by decide
theorem test_X17 : called (exec (.torqueBatch [1, 1, 2, 1, 3, 1, 4]) small) =
    some (some .malformedBatchInput, []) := by decide
theorem test_X21 : called (exec (.moveBatch [1, 1500, 40, 2, -1501, 80]) strict) =
    some (some .outOfRangeParameter, []) := by decide
theorem test_X22 : called (exec (.setTorque 1 1) failing) = some (some .writeFailure,
    [.write [0xFA, 0xAF, 0x01, 0x00, 0x24, 0x01, 0x01, 0x01, 0x24] .failed]) := by decide
theorem test_X25 : reason (exec (.torqueBatch [1]) State.reset) = some .linkNotOpen := by decide

/-! ### The step and the link (R205, R218, R224) -/

/-- X26: a failed open. -/
theorem test_X26 : called (step { failing with link := .closed, caller := [.openLink ⟨1, 115200, 5⟩] }) =
    some (some .transportUnavailable, [.openLink ⟨⟨1, 115200, 5⟩, .none, 1, 8⟩ .failed]) := by decide
theorem test_write_then_flush : called (step { ready with caller := [.command (.reboot 1)] }) =
    some (some .ok, [.write [0xFA, 0xAF, 0x01, 0x20, 0xFF, 0x00, 0x00, 0xDE] .accepted, .flush]) := by decide
theorem test_two_at_once :
    reason (step { ready with caller := [.together (.reboot 1) (.reboot 2)] }) = some .concurrentCommands := by
  decide
theorem test_builder_is_no_command :
    reason (step { ready with caller := [.command (.buildLong 0 0 0 [])] }) = some .notACommand := by decide
/-- R25, R26: nor do its bytes make it one (B10's frame). -/
theorem test_builder_bytes_are_no_command :
    reason (step { ready with caller :=
      [.encoded [0xFA, 0xAF, 0x01, 0x80, 0x24, 0x01, 0x00, 0x01, 0xA5]] }) = some .notACommand := by decide
theorem test_command_is_no_function :
    reason (step { ready with caller := [.evaluate (.reboot 1)] }) = some .notAFunction := by decide
theorem test_open_twice_refused :
    reason (step { ready with caller := [.openLink ⟨0, 0, 0⟩] }) = some .linkAlreadyOpen := by decide
theorem test_close_closed_refused :
    reason (step { State.reset with caller := [.closeLink] }) = some .linkNotOpen := by decide
theorem test_idle_after_reset : goesOn (step State.reset) = true := by decide

/-! ### Witnesses: a state and operands for the hypotheses of each obligation, clause by clause -/

theorem witness_ChecksumNeedsThreeBytes :
    3 ≤ ([0xFA, 0xAF, 0x5A] : List Byte).length ∧ ¬ 3 ≤ ([0xFA, 0xAF] : List Byte).length := by decide
theorem witness_ChecksumIgnoresByteOrder : ([1, 2] : List Byte).Perm [2, 1] := List.Perm.swap 2 1 []
theorem witness_CountRuleOverAllFlags :
    (0x0E : Byte).toNat ≤ 0x0E ∧ 0x0F ≤ (0x0F : Byte).toNat := by decide
theorem witness_BuildShortLaysOutTheFrame :
    ([] : List Byte).length = (0 : Byte).toNat ∧ ([] : List Byte).length ≠ (1 : Byte).toNat := by decide
theorem witness_BuildLongLaysOutTheFrame :
    ([] : List Byte).length = (2 : Byte).toNat * (0 : Byte).toNat ∧
      ([1, 1] : List Byte).length ≠ (2 : Byte).toNat * (2 : Byte).toNat := by decide
theorem witness_BuiltFramesObeyTheLengthLaw :
    (∃ f, buildShort 1 0x40 0xFF 0 [] = some f) ∧ ∃ f, buildLong 0x24 2 0 [] = some f :=
  ⟨⟨_, rfl⟩, _, rfl⟩
theorem witness_BuilderRowsEvaluateTheFunctions :
    ([1] : List Byte).length = (1 : Byte).toNat ∧ ([1] : List Byte).length ≠ (0 : Byte).toNat ∧
      ([1] : List Byte).length = (1 : Byte).toNat * (1 : Byte).toNat ∧
      ([1] : List Byte).length ≠ (1 : Byte).toNat * (0 : Byte).toNat := by decide
theorem witness_IdZeroShortFrameReadsAsLong : (256 : Int) % 256 = 0 := by decide

/-- Both clauses of the catalog laws: bounds met at their edge under `reject`, out of bounds under `truncate`
(sent) and under `reject` (turned away). -/
theorem witness_catalog_states :
    strict.link = .opened ∧ strict.policy = .reject ∧ ready.link = .opened ∧ ready.policy = .truncate := by decide
theorem witness_FlagOnlyOperations : IdRange 1 ∧ IdRange 127 ∧ ¬ IdRange 0 ∧ ¬ IdRange 128 := by decide
theorem witness_SetIdOperation :
    (IdRange 127 ∧ IdRange 1) ∧ ¬ (IdRange 1 ∧ IdRange 128) ∧ ¬ (IdRange 0 ∧ IdRange 1) := by decide
theorem witness_OneByteConfigurationOperations :
    (IdRange 127 ∧ ByteRange 255) ∧ ¬ (IdRange 1 ∧ ByteRange 256) ∧ ¬ (IdRange 1 ∧ ByteRange (-1)) := by decide
theorem witness_SetAngleLimitOperation :
    (IdRange 127 ∧ WordRange 65535 ∧ WordRange 0) ∧ ¬ (IdRange 1 ∧ WordRange 65536 ∧ WordRange 0) ∧
      ¬ (IdRange 1 ∧ WordRange 0 ∧ WordRange (-1500)) := by decide
theorem witness_SetTempLimitOperation :
    (IdRange 1 ∧ WordRange 65535) ∧ ¬ (IdRange 1 ∧ WordRange 65536) := by decide
theorem witness_SetComplianceOperation :
    (IdRange 1 ∧ ByteRange 255 ∧ ByteRange 0 ∧ ByteRange 255 ∧ ByteRange 0 ∧ WordRange 65535) ∧
      ¬ (IdRange 1 ∧ ByteRange 255 ∧ ByteRange 0 ∧ ByteRange 256 ∧ ByteRange 0 ∧ WordRange 65535) := by decide
theorem witness_SetMoveOperation :
    (IdRange 1 ∧ PosRange (-1500) ∧ TimeRange 16383) ∧ ¬ (IdRange 1 ∧ PosRange 1501 ∧ TimeRange 0) ∧
      ¬ (IdRange 1 ∧ PosRange 0 ∧ TimeRange 16384) := by decide
theorem witness_MaxTorqueAndPidOperations :
    (IdRange 1 ∧ ByteRange 255) ∧ ¬ (IdRange 1 ∧ ByteRange 256) := by decide
theorem witness_SetTorqueOperation : (IdRange 127 ∧ ModeRange 2) ∧ ¬ (IdRange 127 ∧ ModeRange 3) := by decide

/-- The three clauses of torqueBatch: odd; too many, none under `reject`, one out of bounds; sent under either
policy. -/
theorem witness_TorqueBatchOperation :
    small.link = .opened ∧ small.maxBatch ≤ 255 ∧ ([1] : List Int).length % 2 ≠ 0 ∧
      (([1, 1, 2, 1, 3, 1] : List Int).length % 2 = 0 ∧
        small.maxBatch < ([1, 1, 2, 1, 3, 1] : List Int).length / 2) ∧
      (strict.policy = .reject ∧ ¬ (1 ≤ ([] : List Int).length / 2 ∧ TorqueRange []) ∧
        ¬ (1 ≤ ([1, 3] : List Int).length / 2 ∧ TorqueRange [1, 3])) ∧
      (([1, 1, 2, 1] : List Int).length / 2 ≤ small.maxBatch ∧ small.policy = .truncate) ∧
      (1 ≤ ([127, 2] : List Int).length / 2 ∧ TorqueRange [127, 2]) := by decide
theorem witness_MoveBatchOperation :
    small.link = .opened ∧ small.maxBatch ≤ 255 ∧ ([1, 0] : List Int).length % 3 ≠ 0 ∧
      (([1, 0, 0, 2, 0, 0, 3, 0, 0] : List Int).length % 3 = 0 ∧
        small.maxBatch < ([1, 0, 0, 2, 0, 0, 3, 0, 0] : List Int).length / 3) ∧
      (strict.policy = .reject ∧ ¬ (1 ≤ ([] : List Int).length / 3 ∧ MoveRange []) ∧
        ¬ (1 ≤ ([1, 1501, 0] : List Int).length / 3 ∧ MoveRange [1, 1501, 0])) ∧
      (([1, 0, 0, 2, 0, 0] : List Int).length / 3 ≤ small.maxBatch ∧ small.policy = .truncate) ∧
      (1 ≤ ([127, -1500, 16383] : List Int).length / 3 ∧ MoveRange [127, -1500, 16383]) := by decide
theorem witness_MalformedExactlyWhenArityFails :
    ready.link = .opened ∧ isCommand (.moveBatch [1, 0]) = true ∧
      (∃ t, exec (.moveBatch [1, 0]) ready = .next t ∧ t.resultPort = some .malformedBatchInput) ∧
      ([1, 0] : List Int).length % 3 ≠ 0 :=
  ⟨rfl, rfl, ⟨_, rfl, rfl⟩, by decide⟩
theorem witness_EntryCountAndTheEmptyBatch :
    small.link = .opened ∧ ([1, 1, 2, 1, 3, 1] : List Int).length % 2 = 0 ∧
      small.maxBatch < ([1, 1, 2, 1, 3, 1] : List Int).length / 2 ∧
      ([1, 0, 0, 2, 0, 0, 3, 0, 0] : List Int).length % 3 = 0 ∧
      small.maxBatch < ([1, 0, 0, 2, 0, 0, 3, 0, 0] : List Int).length / 3 ∧
      ready.policy = .truncate ∧ strict.policy = .reject := by decide
theorem witness_LanesStandInListOrder :
    ([5, 2, 127, 1] : List Int).length % 2 = 0 ∧ 1 < ([5, 2, 127, 1] : List Int).length / 2 ∧
      ([1, 2, 3, 4, 5, 6] : List Int).length % 3 = 0 ∧ 1 < ([1, 2, 3, 4, 5, 6] : List Int).length / 3 := by decide
theorem witness_EncodingErrorsTouchNothing :
    (∃ t, exec (.torqueBatch [1]) ready = .next t ∧ t.resultPort = some .malformedBatchInput) ∧
      ∃ t, exec (.setTorque 1 3) strict = .next t ∧ t.resultPort = some .outOfRangeParameter :=
  ⟨⟨_, rfl, rfl⟩, _, rfl, rfl⟩
theorem witness_OneWritePerCommand :
    isCommand (.setTorque 1 1) = true ∧
      (∃ t, exec (.setTorque 1 1) ready = .next t ∧ t.resultPort = some .ok) ∧
      ∃ t, exec (.setTorque 1 1) failing = .next t ∧ t.resultPort = some .writeFailure :=
  ⟨rfl, ⟨_, rfl, rfl⟩, _, rfl, rfl⟩
theorem witness_CommandsReturnAClosedSetOfResults :
    isCommand (.reboot 1) = true ∧ ∃ t, exec (.reboot 1) ready = .next t := ⟨rfl, _, rfl⟩
theorem witness_NoInstructionChangesTheBlock : ∃ t, exec (.setPID 1 0) ready = .next t := ⟨_, rfl⟩
/-- Two states with different pasts and the same parameters, link and answer. -/
theorem witness_ObservationDependsOnTheCommandAlone :
    ready.policy = { ready with calls := [.flush], resultPort := some .writeFailure }.policy ∧
      ready.maxBatch = { ready with calls := [.flush], resultPort := some .writeFailure }.maxBatch ∧
      ready.link = { ready with calls := [.flush], resultPort := some .writeFailure }.link ∧
      (∃ t, exec (.reboot 1) ready = .next t) ∧
      nextAnswer ready = nextAnswer { ready with calls := [.flush], resultPort := some .writeFailure } :=
  ⟨rfl, rfl, rfl, ⟨_, rfl⟩, rfl⟩
theorem witness_PoliciesAgreeInBounds :
    Bounded ready.maxBatch (.setMove 127 (-1500) 16383) ∧ ready.policy = .truncate ∧
      ∃ t, exec (.setMove 127 (-1500) 16383) ready = .next t :=
  ⟨by unfold Bounded; decide, rfl, _, rfl⟩
theorem witness_TruncateRejectsOnlyOverlongBatches :
    small.policy = .truncate ∧ ∃ t, exec (.torqueBatch [1, 1, 2, 1, 3, 1]) small = .next t ∧
      t.resultPort = some .outOfRangeParameter := ⟨rfl, _, rfl, rfl⟩
theorem witness_EmittedFlagsAndAddresses :
    isCommand (.writeFlashRom 1) = true ∧
      (∃ t f, exec (.writeFlashRom 1) ready = .next t ∧ t.frame = some f ∧ f.address = 0xFF) ∧
      ∃ t f, exec (.moveBatch []) ready = .next t ∧ t.frame = some f ∧ f.address = 0x1E :=
  ⟨rfl, ⟨_, _, rfl, rfl, rfl⟩, _, _, rfl, rfl, rfl⟩
theorem witness_FrameLengthBounds :
    ready.maxBatch ≤ 255 ∧ isCommand (.torqueBatch [1, 1]) = true ∧
      (∃ t f, exec (.torqueBatch [1, 1]) ready = .next t ∧ t.frame = some f) ∧
      (∃ t f, exec (.moveBatch [1, 0, 0]) ready = .next t ∧ t.frame = some f) ∧
      ∃ t f, exec (.setCompliance 1 2 2 1 1 8) ready = .next t ∧ t.frame = some f :=
  ⟨by decide, rfl, ⟨_, _, rfl, rfl⟩, ⟨_, _, rfl, rfl⟩, _, _, rfl, rfl⟩
theorem witness_SpecificRowsNeverOverlap :
    ([0xFA, 0xAF, 0x00, 0x00, 0x24, 0x02, 0x03] : List Byte).length = 7 ∧
      longRow .torqueBatch 0x24 0x02 ∈ specificRows ∧
      (longRow .torqueBatch 0x24 0x02).claims [0xFA, 0xAF, 0x00, 0x00, 0x24, 0x02, 0x03] = true := by decide
theorem witness_DecodeInvertsEncode_short_rows :
    Instr.wf (.writeFlashRom 255) = true ∧ Instr.wf (.reboot 0) = true ∧ Instr.wf (.factoryReset 127) = true ∧
      Instr.wf (.setId 0 255) = true ∧ Instr.wf (.setReverse 1 255) = true ∧
      Instr.wf (.setBaudrate 1 255) = true ∧ Instr.wf (.setReturnDelay 1 255) = true ∧
      Instr.wf (.setAngleLimit 1 65535 0) = true ∧ Instr.wf (.setTempLimit 1 65535) = true := by decide
theorem witness_DecodeInvertsEncode_other_rows :
    Instr.wf (.setCompliance 255 255 255 255 255 65535) = true ∧ Instr.wf (.setMove 1 (-32768) 65535) = true ∧
      Instr.wf (.setMove 1 32767 0) = true ∧ Instr.wf (.setMaxTorque 1 255) = true ∧
      Instr.wf (.setTorque 1 255) = true ∧ Instr.wf (.setPID 1 255) = true ∧
      Instr.wf (.torqueBatch []) = true ∧ Instr.wf (.moveBatch [255, -32768, 65535]) = true ∧
      Instr.wf (.buildShort 0 0x80 0x24 1 [1]) = true ∧ Instr.wf (.buildLong 0x24 1 2 [1, 2]) = true := by decide
/-- A long frame and a short one. -/
theorem witness_DecodeReadsOneFrame :
    isLong (.torqueBatch [1, 1]) = true ∧ isLong (.reboot 1) = false ∧
    decode [0xFA, 0xAF, 0x00, 0x00, 0x24, 0x02, 0x01, 0x01, 0x01, 0x27, 0x55] =
      .ok (.torqueBatch [1, 1], [0x55]) := by decide
theorem witness_CommandsEmitTheirTableEncoding :
    isCommand (.torqueBatch [127, 2]) = true ∧ strict.link = .opened ∧ strict.maxBatch ≤ 255 ∧
      CountFits strict.maxBatch (.torqueBatch [127, 2]) ∧ Bounded strict.maxBatch (.torqueBatch [127, 2]) := by
  unfold CountFits Bounded; decide
theorem witness_StepRunsTheDecodedInstruction :
    decode [0xFA, 0xAF, 0x01, 0x20, 0xFF, 0x00, 0x00, 0xDE] = .ok (.reboot 1, []) ∧
      { ready with caller := [.encoded [0xFA, 0xAF, 0x01, 0x20, 0xFF, 0x00, 0x00, 0xDE]] }.caller =
        [CallerAction.encoded [0xFA, 0xAF, 0x01, 0x20, 0xFF, 0x00, 0x00, 0xDE]] := by decide
theorem witness_StepRunsTheDecodedInstruction_builder :
    decode [0xFA, 0xAF, 0x01, 0x80, 0x24, 0x01, 0x00, 0x01, 0xA5] = .ok (.buildShort 1 0x80 0x24 1 [0x01], []) ∧
      isCommand (.reboot 1) = true ∧ isCommand (.buildShort 1 0x80 0x24 1 [0x01]) = false := by decide
theorem witness_CommandPortRunsOnlyCommands :
    (∃ t, step { ready with caller := [.command (.reboot 1)] } = .next t) ∧
      ∃ t, step { ready with caller := [.encoded [0xFA, 0xAF, 0x01, 0x20, 0xFF, 0x00, 0x00, 0xDE]] } = .next t :=
  ⟨⟨_, rfl⟩, _, rfl⟩
theorem witness_StepEvaluatesABuilderFunction :
    { ready with caller := [.evaluate (.buildLong 0 0 0 [])] }.caller =
        [CallerAction.evaluate (.buildLong 0 0 0 [])] ∧
      isCommand (.buildLong 0 0 0 []) = false ∧ isCommand (.reboot 1) = true := by decide
theorem witness_StepRunsThePlacedTableWord :
    decodeTableWord 56 0xFAAF0020FF0000 = some (.reboot 0) ∧
      decodeTableWord 56 0xFAAF0000000000 = some (.buildLong 0 0 0 []) := by decide
theorem witness_StepRunsThePresentedCommand :
    { ready with caller := [.command (.reboot 1)] }.caller = [CallerAction.command (.reboot 1)] ∧
      isCommand (.reboot 1) = true ∧ isCommand (.buildLong 0 0 0 []) = false := by decide
theorem witness_TwoCommandsAtOnceAreRefused :
    { ready with caller := [.together (.reboot 1) (.reboot 2)] }.caller =
      [CallerAction.together (.reboot 1) (.reboot 2)] := by decide
theorem witness_CommandOnAClosedLinkIsRefused :
    isCommand (.setTorque 1 1) = true ∧ State.reset.link = .closed := by decide
/-- Both answers of the transport to an open. -/
theorem witness_OpeningTheLink :
    { ready with link := .closed, caller := [.openLink ⟨0, 0, 0⟩] }.link = .closed ∧
      nextAnswer ready = .accepted ∧ nextAnswer failing = .failed := by decide
theorem witness_ClosingAndIdling :
    { ready with caller := [.closeLink] }.link = .opened ∧ ready.caller = [] := by decide
theorem witness_StepKeepsTheInvariant :
    ready.Inv ∧ ∃ t, step ready = .next t :=
  ⟨⟨by decide, fun _ _ h => absurd h List.not_mem_nil, rfl, fun _ h => (nomatch (show none = some _ from h)),
    fun h => absurd h (by decide)⟩, _, rfl⟩
theorem witness_LinkFollowsTheCallersCalls :
    ∃ t, step { ready with caller := [.closeLink] } = .next t ∧ t.link = .closed := ⟨_, rfl, rfl⟩
theorem witness_RunsOnlyAppendCalls : ∃ t, core.run 1 ready = .next t := ⟨_, rfl⟩
theorem witness_LinkCarriesTheAcceptedFrames :
    ∀ bytes, TransportCall.write bytes .failed ∉ [TransportCall.write [0x01] .accepted, .flush] := by
  intro bytes h
  simp at h

end Sys2Proof.Tests
end

section
/-! PROOF. What a step does with each use of the caller's list, and the two entrances of an instruction: the
command port and the evaluation outside it. -/

namespace Sys2Proof.Machine

variable {s : State} {i : Instr} {rest : List CallerAction}

/-! ### The entrances -/

theorem issue_of_command (hc : isCommand i = true) : issue i s = exec i s := by
  simp [issue, hc]

theorem issue_of_builder (hc : isCommand i = false) : issue i s = .refused .notACommand := by
  simp [issue, hc]

theorem evaluate_of_builder (hc : isCommand i = false) : evaluate i s = exec i s := by
  simp [evaluate, hc]

theorem evaluate_of_command (hc : isCommand i = true) : evaluate i s = .refused .notAFunction := by
  simp [evaluate, hc]

theorem decodeWhole_of_decode {bytes : List Byte} (hd : decode bytes = .ok (i, [])) :
    decodeWhole bytes = some i := by
  simp [decodeWhole, hd]

/-- Bytes of exactly one frame on the command port are the issue of what they decode to (log 1). -/
theorem issueEncoded_of_decode {bytes : List Byte} (hd : decode bytes = .ok (i, [])) :
    issueEncoded bytes s = issue i s := by
  simp [issueEncoded, decodeWhole_of_decode hd]

/-! ### The step, by the caller's next action -/

theorem step_command (h : s.caller = .command i :: rest) :
    step s = issue i { s with caller := rest } := by
  simp [step, h]

theorem step_encoded {bytes : List Byte} (h : s.caller = .encoded bytes :: rest) :
    step s = issueEncoded bytes { s with caller := rest } := by
  simp [step, h]

theorem step_evaluate (h : s.caller = .evaluate i :: rest) :
    step s = evaluate i { s with caller := rest } := by
  simp [step, h]

end Sys2Proof.Machine

open Sys2Proof Sys2Proof.Machine

/-- Settles O49: a command on the port is issued, and the port lets only commands through. -/
theorem stepRunsThePresentedCommand : Obligations.StepRunsThePresentedCommand := by
  intro s i rest h
  rw [step_command h]
  exact ⟨issue_of_command, issue_of_builder⟩

/-- Settles O45: bytes of exactly one frame are issued like the instruction they decode to. -/
theorem stepRunsTheDecodedInstruction : Obligations.StepRunsTheDecodedInstruction := by
  intro s bytes rest i h hd
  rw [step_encoded h, issueEncoded_of_decode hd]
  exact ⟨issue_of_command, issue_of_builder⟩

/-- Settles O47: the evaluation of a builder function is its `exec`. -/
theorem stepEvaluatesABuilderFunction : Obligations.StepEvaluatesABuilderFunction := by
  intro s i rest h
  rw [step_evaluate h]
  exact ⟨evaluate_of_builder, evaluate_of_command⟩

/-- Settles O46: both forms a command can have on the port, a value and bytes, go through `issue`. -/
theorem commandPortRunsOnlyCommands : Obligations.CommandPortRunsOnlyCommands := by
  rintro s t a rest h (⟨i, rfl⟩ | ⟨bytes, rfl⟩) hstep
  · rw [step_command h] at hstep
    exact ⟨i, issue_next hstep⟩
  · rw [step_encoded h] at hstep
    obtain ⟨i, -, hrun⟩ := issueEncoded_next hstep
    exact ⟨i, hrun⟩
end

section
/-! PROOF. What the two builder functions answer, and the two format rows that evaluate them. -/

namespace Sys2Proof.Machine

/-- A sealed frame is on the wire the framing of its bytes from offset 2 on (R45, R85). -/
theorem Frame.sealed_bytes {f : Frame} (h0 : f.header0 = 0xFA) (h1 : f.header1 = 0xAF) :
    ∃ g, f.sealed = some g ∧ g.bytes =
      framed ([f.servoId, f.flags, f.address, f.length, f.count] ++ f.payload) := by
  refine ⟨_, f.sealed_eq, ?_⟩
  simp [Frame.bytes, Frame.body, framed, h0, h1]

theorem buildShort_of_length (id : Int) (flags address : Byte) {width : Byte} {data : List Byte}
    (h : data.length = width.toNat) : ∃ f, buildShort id flags address width data = some f ∧
      f.bytes = framed ([lo8 id, flags, address, width, countRule flags] ++ data) := by
  rw [buildShort, if_pos h]
  exact Frame.sealed_bytes rfl rfl

theorem buildShort_of_wrong_length (id : Int) (flags address : Byte) {width : Byte} {data : List Byte}
    (h : data.length ≠ width.toNat) : buildShort id flags address width data = none :=
  if_neg h

theorem buildLong_of_length (address : Byte) {width count : Byte} {data : List Byte}
    (h : data.length = width.toNat * count.toNat) : ∃ f, buildLong address width count data = some f ∧
      f.bytes = framed ([0x00, 0x00, address, width, count] ++ data) := by
  rw [buildLong, if_pos h]
  exact Frame.sealed_bytes rfl rfl

theorem buildLong_of_wrong_length (address : Byte) {width count : Byte} {data : List Byte}
    (h : data.length ≠ width.toNat * count.toNat) : buildLong address width count data = none :=
  if_neg h

theorem exec_buildShort (id : Int) (flags address width : Byte) (data : List Byte) (s : State) :
    exec (.buildShort id flags address width data) s =
      evaluateBuilder (buildShort id flags address width data) s := rfl

theorem exec_buildLong (address width count : Byte) (data : List Byte) (s : State) :
    exec (.buildLong address width count data) s =
      evaluateBuilder (buildLong address width count data) s := rfl

/-- Evaluating a builder call that has a frame holds this frame in the two output fields (R26, log 2). -/
theorem evaluateBuilder_of_built {built : Option Frame} {bytes : List Byte} (s : State)
    (h : ∃ f, built = some f ∧ f.bytes = bytes) :
    ∃ f, evaluateBuilder built s = .next { s with frame := some f, resultPort := none } ∧
      f.bytes = bytes := by
  obtain ⟨f, rfl, hbytes⟩ := h
  exact ⟨f, rfl, hbytes⟩

theorem evaluateBuilder_of_none {built : Option Frame} (s : State) (h : built = none) :
    evaluateBuilder built s = .refused .builderDomain := by
  rw [h, evaluateBuilder]

end Sys2Proof.Machine

open Sys2Proof Sys2Proof.Machine

/-- Settles O14: each format row evaluates its builder, which has a frame exactly for data of the right
length. -/
theorem builderRowsEvaluateTheFunctions : Obligations.BuilderRowsEvaluateTheFunctions := by
  refine ⟨fun id flags address width data s => ?_, fun address width count data s => ?_⟩
  · rw [exec_buildShort]
    exact ⟨fun h => evaluateBuilder_of_built s (buildShort_of_length id flags address h),
      fun h => evaluateBuilder_of_none s (buildShort_of_wrong_length id flags address h)⟩
  · rw [exec_buildLong]
    exact ⟨fun h => evaluateBuilder_of_built s (buildLong_of_length address h),
      fun h => evaluateBuilder_of_none s (buildLong_of_wrong_length address h)⟩
end

section
/-! PROOF. Which transport calls one step appends, said once; the sequence of calls over a run follows. -/

namespace Sys2Proof.Machine

/-- What one step can append to the transport calls: nothing, what `emit` makes of a well-formed frame
(R206), or the caller's open or close (R218). -/
inductive StepCalls : List TransportCall → Prop where
  | nothing : StepCalls []
  | emitted (f : Frame) (hf : f.WellFormed) (a : TransportAnswer) : StepCalls (emitCalls f.bytes a)
  | openLink (config : TransportConfig) (a : TransportAnswer) : StepCalls [.openLink config a]
  | close : StepCalls [.close]

/-- The calls of `t` are those of `s` and behind them what one step can append. -/
def AppendsCalls (s t : State) : Prop := ∃ more, t.calls = s.calls ++ more ∧ StepCalls more

theorem AppendsCalls.of_calls_eq {s t : State} (h : t.calls = s.calls) : AppendsCalls s t :=
  ⟨[], by simp [h], .nothing⟩

theorem exec_appendsCalls {i : Instr} {s t : State} (h : exec i s = .next t) : AppendsCalls s t := by
  cases exec_next h with
  | raised => exact .of_calls_eq rfl
  | sent f hf => exact ⟨_, rfl, .emitted f hf _⟩
  | built => exact .of_calls_eq rfl

theorem step_appendsCalls {s t : State} (h : step s = .next t) : AppendsCalls s t := by
  cases step_next h with
  | idled => exact .of_calls_eq rfl
  | openedBy config rest t _ ht =>
    obtain ⟨-, rfl⟩ := openTransport_next ht
    exact ⟨_, rfl, .openLink _ _⟩
  | closedBy rest t _ ht =>
    obtain ⟨-, rfl⟩ := closeTransport_next ht
    exact ⟨_, rfl, .close⟩
  | ran i a rest t _ _ ht => exact exec_appendsCalls (s := { s with caller := rest }) ht

theorem StepCalls.at_most_one_write {more : List TransportCall} (h : StepCalls more) :
    (more.filter isWrite).length ≤ 1 := by
  cases h with
  | emitted f _ a => cases a <;> exact le_rfl
  | nothing | openLink | close => exact Nat.zero_le 1

end Sys2Proof.Machine

open Sys2Proof Sys2Proof.Machine

/-- Settles O57, by induction on the number of steps: each step appends, and at most one write. -/
theorem runsOnlyAppendCalls : Obligations.RunsOnlyAppendCalls := by
  intro n
  induction n with
  | zero =>
    rintro s t h
    cases h
    exact ⟨[], by simp⟩
  | succ n ih =>
    intro s t h
    obtain ⟨u, hstep, hrun⟩ := run_succ_next h
    obtain ⟨first, hfirst, hcalls⟩ := step_appendsCalls hstep
    obtain ⟨later, hlater, hcount⟩ := ih u t hrun
    refine ⟨first ++ later, by rw [hlater, hfirst, List.append_assoc], ?_⟩
    have hone := hcalls.at_most_one_write
    rw [List.filter_append, List.length_append]
    omega
end

section
/-! PROOF. Every step keeps the invariant: `MAX_BATCH` is no step's to change, the calls grow by whole frames
with their flush, and the two output fields fit each other after every step, whatever they held before. -/

namespace Sys2Proof.Machine

/-! ### The calls part -/

theorem StepCalls.wholeFrame_of_write {more : List TransportCall} (h : StepCalls more) {bytes : List Byte}
    {answer : TransportAnswer} (hm : TransportCall.write bytes answer ∈ more) : WholeFrame bytes := by
  cases h with
  | emitted f hf a =>
    have hbytes : bytes = f.bytes := by cases a <;> simp_all [emitCalls]
    exact ⟨f, hf, hbytes⟩
  | nothing | openLink | close => simp at hm

theorem StepCalls.flushesPaired {more : List TransportCall} (h : StepCalls more) :
    flushesPaired more = true := by
  cases h with
  | emitted f _ a => cases a <;> rfl
  | nothing | openLink | close => rfl

/-- Paired calls behind paired calls are paired: the earlier ones end in no write that waits for its flush. -/
theorem flushesPaired_append (xs ys : List TransportCall) (hx : flushesPaired xs = true)
    (hy : flushesPaired ys = true) : flushesPaired (xs ++ ys) = true := by
  induction xs using flushesPaired.induct with
  | case1 => exact hy
  | case2 _ rest ih | case5 _ rest ih | case6 _ _ rest ih | case7 rest ih => exact ih hx
  | case3 => simp [flushesPaired] at hx
  | case4 => cases hx

/-! ### The output part -/

/-- The two clauses of the invariant on the output fields: a well-formed frame where there is one, none beside
an encoding error. -/
structure OutputsFit (t : State) : Prop where
  frame : ∀ f, t.frame = some f → f.WellFormed
  error : t.resultPort = some .malformedBatchInput ∨ t.resultPort = some .outOfRangeParameter →
    t.frame = none

/-- Without a frame the output fields fit, whatever the result. -/
theorem OutputsFit.of_no_frame {t : State} (h : t.frame = none) : OutputsFit t :=
  ⟨by simp [h], fun _ => h⟩

/-- Beside a well-formed frame stands any result but an encoding error. -/
theorem OutputsFit.of_frame {t : State} {f : Frame} (hf : f.WellFormed) (h : t.frame = some f)
    (hm : t.resultPort ≠ some .malformedBatchInput) (ho : t.resultPort ≠ some .outOfRangeParameter) :
    OutputsFit t :=
  ⟨by simpa [h] using hf, by simp [hm, ho]⟩

/-- `emit` answers no encoding error (R206). -/
theorem emitResult_ne_encodingError (a : TransportAnswer) :
    emitResult a ≠ .malformedBatchInput ∧ emitResult a ≠ .outOfRangeParameter := by
  cases a <;> decide

theorem exec_outputsFit {i : Instr} {s t : State} (h : exec i s = .next t) : OutputsFit t := by
  cases exec_next h with
  | raised e => exact .of_no_frame rfl
  | sent f hf =>
    obtain ⟨hm, ho⟩ := emitResult_ne_encodingError (nextAnswer s)
    exact .of_frame hf rfl (by simpa using hm) (by simpa using ho)
  | built f hf => exact .of_frame hf rfl (by simp) (by simp)

theorem step_outputsFit {s t : State} (h : step s = .next t) : OutputsFit t := by
  cases step_next h with
  | idled => exact .of_no_frame rfl
  | openedBy config rest t _ ht =>
    obtain ⟨-, rfl⟩ := openTransport_next ht
    exact .of_no_frame rfl
  | closedBy rest t _ ht =>
    obtain ⟨-, rfl⟩ := closeTransport_next ht
    exact .of_no_frame rfl
  | ran i a rest t _ _ ht => exact exec_outputsFit ht

/-! ### `MAX_BATCH` -/

theorem exec_maxBatch {i : Instr} {s t : State} (h : exec i s = .next t) : t.maxBatch = s.maxBatch := by
  cases exec_next h <;> rfl

theorem step_maxBatch {s t : State} (h : step s = .next t) : t.maxBatch = s.maxBatch := by
  cases step_next h with
  | idled => rfl
  | openedBy config rest t _ ht => rw [(openTransport_next ht).2]; rfl
  | closedBy rest t _ ht => rw [(closeTransport_next ht).2]; rfl
  | ran i a rest t _ _ ht => exact exec_maxBatch (s := { s with caller := rest }) ht

/-- What keeps the invariant: the same `MAX_BATCH`, appended calls, output fields that fit. -/
theorem State.Inv.of_appendsCalls {s t : State} (hs : s.Inv) (hb : t.maxBatch = s.maxBatch)
    (hc : AppendsCalls s t) (ho : OutputsFit t) : t.Inv := by
  obtain ⟨more, hcalls, hmore⟩ := hc
  exact {
    maxBatch := hb ▸ hs.maxBatch
    writes := fun bytes answer hm => by
      rw [hcalls, List.mem_append] at hm
      exact hm.elim (hs.writes bytes answer) hmore.wholeFrame_of_write
    flushes := hcalls ▸ flushesPaired_append _ _ hs.flushes hmore.flushesPaired
    frame := ho.frame
    error := ho.error }

end Sys2Proof.Machine

open Sys2Proof Sys2Proof.Machine

/-- Settles O54, from what a step does to each part of the invariant. -/
theorem stepKeepsTheInvariant : Obligations.StepKeepsTheInvariant :=
  fun _ _ hs h => hs.of_appendsCalls (step_maxBatch h) (step_appendsCalls h) (step_outputsFit h)
end

section
/-! PROOF. The policy enters a command by `rejects` alone, and on operands in bounds `rejects` is false under
either policy. -/

namespace Sys2Proof.Machine

/-! ### The check of `reject` is the table of R192 -/

theorem inRange_iff (lo hi v : Int) : inRange lo hi v = true ↔ lo ≤ v ∧ v ≤ hi := by
  simp [inRange]

@[simp] theorem idInBounds_iff (v : Int) : idInBounds v = true ↔ IdRange v := inRange_iff ..
@[simp] theorem byteInBounds_iff (v : Int) : byteInBounds v = true ↔ ByteRange v := inRange_iff ..
@[simp] theorem wordInBounds_iff (v : Int) : wordInBounds v = true ↔ WordRange v := inRange_iff ..
@[simp] theorem posInBounds_iff (v : Int) : posInBounds v = true ↔ PosRange v := inRange_iff ..
@[simp] theorem timeInBounds_iff (v : Int) : timeInBounds v = true ↔ TimeRange v := inRange_iff ..

@[simp] theorem modeInBounds_iff (v : Int) : modeInBounds v = true ↔ ModeRange v := by
  rw [modeInBounds, inRange_iff]
  omega

@[simp] theorem countInBounds_iff (maxBatch n : Nat) :
    countInBounds maxBatch n = true ↔ 1 ≤ n ∧ n ≤ maxBatch := by
  simp [countInBounds]

/-- A torque list is in range when its first entry is and the later ones are. -/
theorem torqueRange_cons (id mode : Int) (rest : List Int) :
    TorqueRange (id :: mode :: rest) ↔ (IdRange id ∧ ModeRange mode) ∧ TorqueRange rest := by
  have hlen : (id :: mode :: rest).length / 2 = rest.length / 2 + 1 := by
    simp only [List.length_cons]
    omega
  rw [TorqueRange, hlen, Nat.forall_lt_succ_left]
  rfl

/-- A move list is in range when its first entry is and the later ones are. -/
theorem moveRange_cons (id pos time : Int) (rest : List Int) :
    MoveRange (id :: pos :: time :: rest) ↔
      (IdRange id ∧ PosRange pos ∧ TimeRange time) ∧ MoveRange rest := by
  have hlen : (id :: pos :: time :: rest).length / 3 = rest.length / 3 + 1 := by
    simp only [List.length_cons]
    omega
  rw [MoveRange, hlen, Nat.forall_lt_succ_left]
  rfl

@[simp] theorem torqueListInBounds_iff (list : List Int) :
    torqueListInBounds list = true ↔ TorqueRange list := by
  induction list using torqueListInBounds.induct with
  | case1 id mode rest ih => simp [torqueListInBounds, torqueRange_cons, ih]
  | case2 list hshort =>
    have hlen : list.length / 2 = 0 := by
      match list with
      | [] | [_] => simp
      | id :: mode :: rest => exact (hshort id mode rest rfl).elim
    simp [torqueListInBounds, TorqueRange, hlen]

@[simp] theorem moveListInBounds_iff (list : List Int) :
    moveListInBounds list = true ↔ MoveRange list := by
  induction list using moveListInBounds.induct with
  | case1 id pos time rest ih => simp [moveListInBounds, moveRange_cons, ih, and_assoc]
  | case2 list hshort =>
    have hlen : list.length / 3 = 0 := by
      match list with
      | [] | [_] | [_, _] => simp
      | id :: pos :: time :: rest => exact (hshort id pos time rest rfl).elim
    simp [moveListInBounds, MoveRange, hlen]

/-- The check that `reject` runs is the table of bounds (R192). -/
theorem inBounds_iff_bounded (maxBatch : Nat) (i : Instr) :
    inBounds maxBatch i = true ↔ Bounded maxBatch i := by
  cases i <;> simp [inBounds, Bounded, and_assoc, torqueBatchArity, moveBatchArity]

/-! ### Where the policy enters -/

variable {i : Instr} {s t : State} {p : RangePolicy}

/-- In bounds the check turns nothing away, whatever the policy (R189). -/
theorem rejects_of_inBounds (h : inBounds s.maxBatch i = true) : rejects i s = false := by
  simp [rejects, h]

theorem rejects_withPolicy_of_inBounds (h : inBounds s.maxBatch i = true) :
    rejects i { s with policy := p } = rejects i s :=
  (rejects_of_inBounds (s := { s with policy := p }) h).trans (rejects_of_inBounds h).symm

theorem emitBuilt_withPolicy {built : Option Frame} (h : emitBuilt built s = .next t) :
    emitBuilt built { s with policy := p } = .next { t with policy := p } := by
  obtain ⟨f, rfl, hl, rfl⟩ := emitBuilt_next h
  exact if_pos hl

theorem evaluateBuilder_withPolicy {built : Option Frame} (h : evaluateBuilder built s = .next t) :
    evaluateBuilder built { s with policy := p } = .next { t with policy := p } := by
  obtain ⟨f, rfl, rfl⟩ := evaluateBuilder_next h
  rfl

/-- A refusal in front of what passes to the other policy does not keep it from passing. -/
theorem guarded_withPolicy {c : Prop} [Decidable c] {r : Refusal} {x y : Outcome}
    (hxy : x = .next t → y = .next { t with policy := p })
    (h : (if c then .refused r else x) = .next t) :
    (if c then .refused r else y) = .next { t with policy := p } := by
  split at h
  · cases h
  · next hc => rw [if_neg hc, hxy h]

/-- Nor does a check that ends in an encoding error, as long as it does not read the policy. -/
theorem checked_withPolicy {c : Prop} [Decidable c] {e : Result} {x y : Outcome}
    (hxy : x = .next t → y = .next { t with policy := p })
    (h : (if c then .next (raise e s) else x) = .next t) :
    (if c then .next (raise e { s with policy := p }) else y) = .next { t with policy := p } := by
  split at h
  · next hc =>
    cases h
    exact if_pos hc
  · next hc => rw [if_neg hc, hxy h]

section
variable (hr : rejects i { s with policy := p } = rejects i s)
include hr

theorem catalogCommand_withPolicy {d : Descriptor} {id : Int} {payload : List Byte}
    (h : catalogCommand i d id payload s = .next t) :
    catalogCommand i d id payload { s with policy := p } = .next { t with policy := p } := by
  simp only [catalogCommand, hr] at h ⊢
  exact guarded_withPolicy (checked_withPolicy emitBuilt_withPolicy) h

theorem batchCommand_withPolicy {address width : Byte} {arity : Nat} {list : List Int} {data : List Byte}
    (h : batchCommand i address width arity list data s = .next t) :
    batchCommand i address width arity list data { s with policy := p } =
      .next { t with policy := p } := by
  simp only [batchCommand, hr] at h ⊢
  exact guarded_withPolicy
    (checked_withPolicy (checked_withPolicy (checked_withPolicy emitBuilt_withPolicy))) h

/-- An instruction whose check comes out the same under another policy answers the same there. -/
theorem exec_withPolicy (h : exec i s = .next t) :
    exec i { s with policy := p } = .next { t with policy := p } := by
  cases i with
  | torqueBatch list => exact batchCommand_withPolicy hr h
  | moveBatch list => exact batchCommand_withPolicy hr h
  | buildShort | buildLong => exact evaluateBuilder_withPolicy h
  | _ => exact catalogCommand_withPolicy hr h

end

end Sys2Proof.Machine

open Sys2Proof Sys2Proof.Machine

/-- Settles O36: in bounds the check turns nothing away under either policy, and nothing else of a command
reads the policy. -/
theorem policiesAgreeInBounds : Obligations.PoliciesAgreeInBounds := by
  rintro i s t hb - h
  have hin := (inBounds_iff_bounded s.maxBatch i).mpr hb
  exact exec_withPolicy (rejects_withPolicy_of_inBounds hin) h
end

section
/-! PROOF. What reset leaves in the state, and the constants of the block. -/

open Sys2Proof Sys2Proof.Machine

/-- Settles O1, field by field of the reset state. -/
theorem resetHoldsTheRuledValues : Obligations.ResetHoldsTheRuledValues :=
  ⟨rfl, rfl, rfl, rfl, rfl⟩

/-- Settles O2, entry by entry of the table. -/
theorem catalogHoldsTheFourteenTriples : Obligations.CatalogHoldsTheFourteenTriples :=
  ⟨rfl, rfl, rfl, rfl, rfl, rfl, rfl, rfl, rfl, rfl, rfl, rfl, rfl, rfl⟩

/-- Settles O3: eight constants by their definition, and the two encodings computed. -/
theorem defaultOperandValues : Obligations.DefaultOperandValues :=
  ⟨rfl, rfl, rfl, rfl, rfl, rfl, rfl, rfl, by decide⟩

/-- Settles O55: `MAX_BATCH` is legal, no call was made, and without a frame the output fields fit. -/
theorem resetHasTheInvariant : Obligations.ResetHasTheInvariant :=
  have hout : OutputsFit State.reset := .of_no_frame rfl
  { maxBatch := by decide
    writes := fun _ _ hm => absurd hm List.not_mem_nil
    flushes := rfl
    frame := hout.frame
    error := hout.error }
end

section
/-! PROOF. What every instruction leaves unchanged. -/

namespace Sys2Proof.Machine

variable {i : Instr} {s t : State}

theorem exec_policy (h : exec i s = .next t) : t.policy = s.policy := by
  cases exec_next h <;> rfl

theorem exec_link (h : exec i s = .next t) : t.link = s.link := by
  cases exec_next h <;> rfl

theorem exec_caller (h : exec i s = .next t) : t.caller = s.caller := by
  cases exec_next h <;> rfl

theorem AppendsCalls.calls_isPrefix (h : AppendsCalls s t) : s.calls <+: t.calls := by
  obtain ⟨more, hcalls, -⟩ := h
  exact ⟨more, hcalls.symm⟩

end Sys2Proof.Machine

open Sys2Proof Sys2Proof.Machine

/-- Settles O34: no outcome of an instruction touches the four fields, and calls are only appended. -/
theorem noInstructionChangesTheBlock : Obligations.NoInstructionChangesTheBlock :=
  fun _ _ _ h =>
    ⟨exec_policy h, exec_maxBatch h, exec_link h, exec_caller h, (exec_appendsCalls h).calls_isPrefix⟩
end

section
/-! PROOF. Two states with equal parameters and link take the same branch of every command, and what stands at
the end of a branch lets the caller observe the same but for the transport's answer (R49, R209). -/

namespace Sys2Proof.Machine

/-- The part of the state that a command may read, the transport's answer aside. -/
structure SameBlock (s₁ s₂ : State) : Prop where
  policy : s₁.policy = s₂.policy
  maxBatch : s₁.maxBatch = s₂.maxBatch
  link : s₁.link = s₂.link

/-- If `x₁`, answered from `s₁`, is a next state, so is `x₂`, answered from `s₂`, with the same frame and, for
the same answer of the transport, the same observation. -/
def ObservedAlike (s₁ s₂ : State) (x₁ x₂ : Outcome) : Prop :=
  ∀ t₁, x₁ = .next t₁ → ∃ t₂, x₂ = .next t₂ ∧ t₂.frame = t₁.frame ∧
    (nextAnswer s₁ = nextAnswer s₂ → observation t₂ = observation t₁)

variable {s₁ s₂ : State}

theorem SameBlock.rejects_eq (hs : SameBlock s₁ s₂) (i : Instr) : rejects i s₁ = rejects i s₂ := by
  simp only [rejects, hs.policy, hs.maxBatch]

/-! ### The ends of the branches -/

theorem ObservedAlike.refused {r : Refusal} {x₂ : Outcome} : ObservedAlike s₁ s₂ (.refused r) x₂ :=
  fun _ h => nomatch h

theorem ObservedAlike.next {t₁ t₂ : State} (hf : t₂.frame = t₁.frame)
    (hr : nextAnswer s₁ = nextAnswer s₂ → t₂.resultPort = t₁.resultPort) :
    ObservedAlike s₁ s₂ (.next t₁) (.next t₂) := by
  rintro _ ⟨⟩
  exact ⟨t₂, rfl, hf, fun ha => by rw [observation, observation, hf, hr ha]⟩

theorem ObservedAlike.raised {e : Result} :
    ObservedAlike s₁ s₂ (.next (raise e s₁)) (.next (raise e s₂)) :=
  .next rfl fun _ => rfl

theorem ObservedAlike.ite {c : Prop} [Decidable c] {x₁ y₁ x₂ y₂ : Outcome}
    (hx : ObservedAlike s₁ s₂ x₁ x₂) (hy : ObservedAlike s₁ s₂ y₁ y₂) :
    ObservedAlike s₁ s₂ (if c then x₁ else y₁) (if c then x₂ else y₂) := by
  split
  · exact hx
  · exact hy

/-! ### The operations -/

theorem evaluateBuilder_observedAlike (built : Option Frame) :
    ObservedAlike s₁ s₂ (evaluateBuilder built s₁) (evaluateBuilder built s₂) := by
  cases built with
  | none => exact .refused
  | some f => exact .next rfl fun _ => rfl

section
variable (hs : SameBlock s₁ s₂)
include hs

/-- The answer of the transport decides the result of `emit` and never its frame (R206, R209). -/
theorem emit_observedAlike (f : Frame) : ObservedAlike s₁ s₂ (emit f s₁) (emit f s₂) := by
  simp only [emit, hs.link]
  exact .ite (.next rfl fun ha => by simp [ha]) .refused

theorem emitBuilt_observedAlike (built : Option Frame) :
    ObservedAlike s₁ s₂ (emitBuilt built s₁) (emitBuilt built s₂) := by
  cases built with
  | none => exact .refused
  | some f => exact emit_observedAlike hs f

theorem catalogCommand_observedAlike {i : Instr} {d : Descriptor} {id : Int} {payload : List Byte} :
    ObservedAlike s₁ s₂ (catalogCommand i d id payload s₁) (catalogCommand i d id payload s₂) := by
  simp only [catalogCommand, hs.link, hs.rejects_eq]
  exact .ite .refused (.ite .raised (emitBuilt_observedAlike hs _))

theorem batchCommand_observedAlike {i : Instr} {address width : Byte} {arity : Nat} {list : List Int}
    {data : List Byte} :
    ObservedAlike s₁ s₂ (batchCommand i address width arity list data s₁)
      (batchCommand i address width arity list data s₂) := by
  simp only [batchCommand, hs.link, hs.maxBatch, hs.rejects_eq]
  exact .ite .refused (.ite .raised (.ite .raised (.ite .raised (emitBuilt_observedAlike hs _))))

theorem exec_observedAlike (i : Instr) : ObservedAlike s₁ s₂ (exec i s₁) (exec i s₂) := by
  cases i with
  | torqueBatch | moveBatch => exact batchCommand_observedAlike hs
  | buildShort | buildLong => exact evaluateBuilder_observedAlike _
  | _ => exact catalogCommand_observedAlike hs

end

end Sys2Proof.Machine

open Sys2Proof Sys2Proof.Machine

/-- Settles O35: the parameters and the link are all that an instruction reads before its branch ends. -/
theorem observationDependsOnTheCommandAlone : Obligations.ObservationDependsOnTheCommandAlone :=
  fun i _ _ t₁ hpolicy hmaxBatch hlink h => exec_observedAlike ⟨hpolicy, hmaxBatch, hlink⟩ i t₁ h
end

section
/-! PROOF. Which header bytes a command's frame can carry: those of a row of the catalog, or of one of the two
batch operations. -/

namespace Sys2Proof.Machine

/-- The header bytes that R40 and R101 allow: one of four flag bytes, and the sentinel address exactly beside
flags other than 0, then without payload and count. -/
def HeaderAllowed (flags address length count : Byte) : Prop :=
  (flags = 0x00 ∨ flags = 0x10 ∨ flags = 0x20 ∨ flags = 0x40) ∧
    (address = 0xFF ↔ flags ≠ 0x00) ∧ (address = 0xFF → length = 0 ∧ count = 0)

/-! ### The sources of a command's header bytes -/

theorem catalog_headerAllowed (op : CatalogOp) :
    HeaderAllowed (catalog op).flags (catalog op).address (catalog op).payloadWidth
      (countRule (catalog op).flags) := by
  unfold HeaderAllowed
  cases op <;> decide

theorem headerAllowed_of_register {address : Byte} (h : address ≠ 0xFF) (length count : Byte) :
    HeaderAllowed 0x00 address length count :=
  ⟨.inl rfl, iff_of_false h fun hflags => hflags rfl, fun ha => absurd ha h⟩

theorem buildShort_header {id flags address width data f}
    (h : buildShort id flags address width data = some f) :
    f.flags = flags ∧ f.address = address ∧ f.length = width ∧ f.count = countRule flags := by
  unfold buildShort at h
  split at h
  · rw [Frame.sealed_eq, Option.some.injEq] at h
    subst h
    exact ⟨rfl, rfl, rfl, rfl⟩
  · cases h

theorem buildLong_header {address width count data f}
    (h : buildLong address width count data = some f) :
    f.flags = 0x00 ∧ f.address = address ∧ f.length = width ∧ f.count = count := by
  unfold buildLong at h
  split at h
  · rw [Frame.sealed_eq, Option.some.injEq] at h
    subst h
    exact ⟨rfl, rfl, rfl, rfl⟩
  · cases h

/-! ### The frame a command leaves -/

/-- A frame that the catalog path leaves is the one BUILD_SHORT made of the descriptor. -/
theorem catalogCommand_frame {i d id payload s t f} (h : catalogCommand i d id payload s = .next t)
    (hf : t.frame = some f) : buildShort id d.flags d.address d.payloadWidth payload = some f := by
  obtain ⟨-, ⟨-, rfl⟩ | ⟨-, g, hg, rfl⟩⟩ := catalogCommand_next h
  · cases hf
  · exact hg.trans hf

/-- A frame that the batch path leaves is the one BUILD_LONG made of the entries. -/
theorem batchCommand_frame {i address width arity list data s t f}
    (h : batchCommand i address width arity list data s = .next t) (hf : t.frame = some f) :
    buildLong address width (BitVec.ofNat 8 (list.length / arity)) data = some f := by
  obtain ⟨-, ⟨-, rfl⟩ | ⟨-, -, rfl⟩ | ⟨-, -, -, g, hg, rfl⟩⟩ := batchCommand_next h
  · cases hf
  · cases hf
  · exact hg.trans hf

theorem catalogCommand_headerAllowed {i op id payload s t f}
    (h : catalogCommand i (catalog op) id payload s = .next t) (hf : t.frame = some f) :
    HeaderAllowed f.flags f.address f.length f.count := by
  obtain ⟨hflags, haddress, hlength, hcount⟩ := buildShort_header (catalogCommand_frame h hf)
  rw [hflags, haddress, hlength, hcount]
  exact catalog_headerAllowed op

theorem batchCommand_headerAllowed {i address width arity list data s t f} (ha : address ≠ 0xFF)
    (h : batchCommand i address width arity list data s = .next t) (hf : t.frame = some f) :
    HeaderAllowed f.flags f.address f.length f.count := by
  obtain ⟨hflags, haddress, -, -⟩ := buildLong_header (batchCommand_frame h hf)
  rw [hflags, haddress]
  exact headerAllowed_of_register ha _ _

theorem exec_headerAllowed {i : Instr} {s t : State} {f : Frame} (hc : isCommand i = true)
    (h : exec i s = .next t) (hf : t.frame = some f) :
    HeaderAllowed f.flags f.address f.length f.count := by
  cases i with
  | torqueBatch => exact batchCommand_headerAllowed (address := torqueBatchAddr) (by decide) h hf
  | moveBatch => exact batchCommand_headerAllowed (address := moveBatchAddr) (by decide) h hf
  | buildShort | buildLong => cases hc
  | _ => exact catalogCommand_headerAllowed h hf

end Sys2Proof.Machine

open Sys2Proof Sys2Proof.Machine

/-- Settles O38: the catalog's rows and the two batch operations have allowed header bytes. -/
theorem emittedFlagsAndAddresses : Obligations.EmittedFlagsAndAddresses :=
  fun _ _ _ _ hc h hf => exec_headerAllowed hc h hf
end

section
/-! PROOF. The operation map: two rows that claim the same head ask the same of it, so that at most one of the
sixteen specific rows does, and `classify` finds the one there is. -/

namespace Sys2Proof

open Machine

/-- Two masks clear the same bits in either order. -/
theorem mask_right_comm (head m₁ m₂ : List Byte) :
    List.zipWith (· &&& ·) (List.zipWith (· &&& ·) head m₁) m₂ =
      List.zipWith (· &&& ·) (List.zipWith (· &&& ·) head m₂) m₁ := by
  induction head generalizing m₁ m₂ with
  | nil => rfl
  | cons b head ih =>
    match m₁, m₂ with
    | [], _ | _, [] => simp
    | x :: m₁, y :: m₂ =>
      simp only [List.zipWith_cons_cons, ih m₁ m₂, BitVec.and_assoc, BitVec.and_comm x y]

/-- What two rows that claim the same head ask of it agrees where both masks look. -/
theorem OpRow.compatible_of_claims {r₁ r₂ : OpRow} {head : List Byte} (h₁ : r₁.claims head = true)
    (h₂ : r₂.claims head = true) :
    List.zipWith (· &&& ·) r₁.pattern r₂.mask = List.zipWith (· &&& ·) r₂.pattern r₁.mask := by
  simp only [OpRow.claims, decide_eq_true_eq] at h₁ h₂
  rw [← h₁, ← h₂]
  exact mask_right_comm head r₁.mask r₂.mask

/-- The specific rows are told apart by bytes that both of any two masks keep. -/
theorem specificRows_eq_of_compatible : ∀ r₁ ∈ specificRows, ∀ r₂ ∈ specificRows,
    List.zipWith (· &&& ·) r₁.pattern r₂.mask = List.zipWith (· &&& ·) r₂.pattern r₁.mask → r₁ = r₂ := by
  decide

theorem specificRows_unique {r₁ r₂ : OpRow} {head : List Byte} (m₁ : r₁ ∈ specificRows)
    (m₂ : r₂ ∈ specificRows) (h₁ : r₁.claims head = true) (h₂ : r₂.claims head = true) : r₁ = r₂ :=
  specificRows_eq_of_compatible r₁ m₁ r₂ m₂ (OpRow.compatible_of_claims h₁ h₂)

/-- A head that a specific row claims is classified as that row (R98). -/
theorem classify_of_claims {row : OpRow} {head : List Byte} (hmem : row ∈ specificRows)
    (hclaims : row.claims head = true) : classify head = some row.name := by
  have hsome : (specificRows.find? (·.claims head)).isSome :=
    List.find?_isSome.mpr ⟨row, hmem, hclaims⟩
  obtain ⟨r, hr⟩ := Option.isSome_iff_exists.mp hsome
  have hr_claims := List.find?_some hr
  have heq : r = row := specificRows_unique (List.mem_of_find?_eq_some hr) hmem hr_claims hclaims
  simp [classify, List.find?_append, hr, heq]

/-- A head that no specific row claims is left to the two format rows (R98). -/
theorem classify_of_unclaimed {head : List Byte} (h : ∀ row ∈ specificRows, row.claims head = false) :
    classify head = (formatRows.find? (·.claims head)).map (·.name) := by
  have hnone : specificRows.find? (·.claims head) = none := by simpa using h
  simp [classify, List.find?_append, hnone]

end Sys2Proof

open Sys2Proof Sys2Proof.Machine

/-- Settles O40: rows that claim the same head are compatible, and no two specific rows are. -/
theorem specificRowsNeverOverlap : Obligations.SpecificRowsNeverOverlap :=
  fun _ _ _ m₁ _ m₂ h₁ h₂ => specificRows_unique m₁ m₂ h₁ h₂
end

section
/-! PROOF. The decoder inverts the encoder: the field decoders give back what a field carries, the two batch
payloads what their entries carry, and the row of an instruction is the one its frame is classified as. -/

namespace Sys2Proof

open Machine

/-! ### Fields -/

theorem lo8_toNat (v : Int) : ((lo8 v).toNat : Int) = v % 256 := by
  rw [lo8, BitVec.toNat_ofNat]
  omega

theorem dec8_lo8 (v : Int) : dec8 (lo8 v) = v % 256 :=
  lo8_toNat v

theorem dec16U_lo8 (v : Int) : dec16U (lo8 v) (lo8 (v / 256)) = v % 65536 := by
  rw [dec16U, lo8_toNat, lo8_toNat]
  omega

theorem dec16S_lo8 (v : Int) :
    dec16S (lo8 v) (lo8 (v / 256)) = (v + 32768) % 65536 - 32768 := by
  have hlo := lo8_toNat v
  have hhi := lo8_toNat (v / 256)
  rw [dec16S, sext16]
  split <;> omega

theorem carries_iff (lo hi v : Int) : carries lo hi v = true ↔ lo ≤ v ∧ v ≤ hi := by
  simp [carries]

theorem dec8_lo8_of_carried {v : Int} (h : carriesByte v = true) : dec8 (lo8 v) = v := by
  rw [carriesByte, carries_iff] at h
  rw [dec8_lo8]
  omega

theorem dec16U_lo8_of_carried {v : Int} (h : carriesUnsigned16 v = true) :
    dec16U (lo8 v) (lo8 (v / 256)) = v := by
  rw [carriesUnsigned16, carries_iff] at h
  rw [dec16U_lo8]
  omega

theorem dec16S_lo8_of_carried {v : Int} (h : carriesSigned16 v = true) :
    dec16S (lo8 v) (lo8 (v / 256)) = v := by
  rw [carriesSigned16, carries_iff] at h
  rw [dec16S_lo8]
  omega

/-! ### Batch payloads -/

theorem torquePayload_length (list : List Int) :
    (torquePayload list).length = 2 * (list.length / 2) := by
  induction list using torquePayload.induct with
  | case1 id mode rest ih =>
    simp only [torquePayload, List.length_cons, ih]
    omega
  | case2 list hshort =>
    match list with
    | [] | [_] => simp [torquePayload]
    | id :: mode :: rest => exact (hshort id mode rest rfl).elim

theorem movePayload_length (list : List Int) : (movePayload list).length = 5 * (list.length / 3) := by
  induction list using movePayload.induct with
  | case1 id pos time rest ih =>
    simp only [movePayload, enc16, List.length_append, List.length_cons, List.length_nil, ih]
    omega
  | case2 list hshort =>
    match list with
    | [] | [_] | [_, _] => simp [movePayload]
    | id :: pos :: time :: rest => exact (hshort id pos time rest rfl).elim

theorem torqueScalars_torquePayload (list : List Int) (h : torqueListCarried list = true) :
    torqueScalars (torquePayload list) = some list := by
  induction list using torqueListCarried.induct with
  | case1 => rfl
  | case2 id mode rest ih =>
    simp only [torqueListCarried, Bool.and_eq_true] at h
    obtain ⟨⟨hid, hmode⟩, hrest⟩ := h
    simp [torquePayload, torqueScalars, ih hrest, dec8_lo8_of_carried hid, dec8_lo8_of_carried hmode]
  | case3 => cases h

theorem moveScalars_movePayload (list : List Int) (h : moveListCarried list = true) :
    moveScalars (movePayload list) = some list := by
  induction list using moveListCarried.induct with
  | case1 => rfl
  | case2 id pos time rest ih =>
    simp only [moveListCarried, Bool.and_eq_true] at h
    obtain ⟨⟨⟨hid, hpos⟩, htime⟩, hrest⟩ := h
    simp [movePayload, enc16, moveScalars, ih hrest, dec8_lo8_of_carried hid,
      dec16S_lo8_of_carried hpos, dec16U_lo8_of_carried htime]
  | case3 | case4 => cases h

/-! ### The row of an instruction -/

/-- The row of the opcode table whose frame an instruction has (R97). -/
def Instr.row : Instr → RowName
  | .writeFlashRom _ => .writeFlashRom
  | .reboot _ => .reboot
  | .factoryReset _ => .factoryReset
  | .setId _ _ => .setId
  | .setReverse _ _ => .setReverse
  | .setBaudrate _ _ => .setBaudrate
  | .setReturnDelay _ _ => .setReturnDelay
  | .setAngleLimit _ _ _ => .setAngleLimit
  | .setTempLimit _ _ => .setTempLimit
  | .setCompliance _ _ _ _ _ _ => .setCompliance
  | .setMove _ _ _ => .setMove
  | .setMaxTorque _ _ => .setMaxTorque
  | .setTorque _ _ => .setTorque
  | .setPID _ _ => .setPID
  | .torqueBatch _ => .torqueBatch
  | .moveBatch _ => .moveBatch
  | .buildShort _ _ _ _ _ => .buildShort
  | .buildLong _ _ _ _ => .buildLong

/-- The fixed bytes of every specific row, in the words of `Instr.wf`: a triple of a SHORT row with the count of
the count rule, or a pair of a LONG row. -/
theorem specificRows_shape : ∀ row ∈ specificRows,
    (∃ t ∈ shortRowTriples, row = shortRow row.name t.1 t.2.1 t.2.2 (countRule t.1)) ∨
      ∃ p ∈ longRowPairs, row = longRow row.name p.1 p.2 := by
  decide

variable {id flags address length count : Byte}

/-- A head that a specific row claims holds a listed pair of a LONG row, or a listed triple of a SHORT row beside
the count of the count rule. -/
theorem listed_of_claims {row : OpRow} (hmem : row ∈ specificRows)
    (h : row.claims [0xFA, 0xAF, id, flags, address, length, count] = true) :
    (count = countRule flags ∧ (flags, address, length) ∈ shortRowTriples) ∨
      (id = 0 ∧ flags = 0 ∧ (address, length) ∈ longRowPairs) := by
  obtain ⟨t, ht, hrow⟩ | ⟨p, hp, hrow⟩ := specificRows_shape row hmem
  · rw [hrow, shortRow_claims, decide_eq_true_eq] at h
    obtain ⟨rfl, rfl, rfl, rfl⟩ := h
    exact .inl ⟨rfl, ht⟩
  · rw [hrow, longRow_claims, decide_eq_true_eq] at h
    obtain ⟨rfl, rfl, rfl, rfl⟩ := h
    exact .inr ⟨rfl, rfl, hp⟩

/-- Without such a pair and such a triple no specific row claims the head. -/
theorem unclaimed_of_unlisted
    (hshort : count = countRule flags → (flags, address, length) ∉ shortRowTriples)
    (hlong : id = 0 → flags = 0 → (address, length) ∉ longRowPairs) :
    ∀ row ∈ specificRows, row.claims [0xFA, 0xAF, id, flags, address, length, count] = false := by
  intro row hmem
  rw [Bool.eq_false_iff]
  intro h
  obtain ⟨hc, ht⟩ | ⟨hi, hf, hp⟩ := listed_of_claims hmem h
  · exact hshort hc ht
  · exact hlong hi hf hp

theorem classify_shortRow {row : RowName} (hmem : shortRow row flags address length count ∈ specificRows) :
    classify [0xFA, 0xAF, id, flags, address, length, count] = some row :=
  classify_of_claims hmem (by rw [shortRow_claims]; simp)

theorem classify_longRow {row : RowName} (hmem : longRow row address length ∈ specificRows) :
    classify [0xFA, 0xAF, 0, 0, address, length, count] = some row :=
  classify_of_claims hmem (by rw [longRow_claims]; simp)

theorem classify_buildLong (hshort : count = 1 → (0, address, length) ∉ shortRowTriples)
    (hlong : (address, length) ∉ longRowPairs) :
    classify [0xFA, 0xAF, 0, 0, address, length, count] = some .buildLong := by
  rw [classify_of_unclaimed (unclaimed_of_unlisted hshort fun _ _ => hlong), formatRows,
    List.find?_cons_of_pos]
  · rfl
  · rw [buildLongRow_claims]
    simp

theorem classify_buildShort (hlong : ¬ (id = 0 ∧ flags = 0))
    (hshort : (flags, address, length) ∉ shortRowTriples) :
    classify [0xFA, 0xAF, id, flags, address, length, count] = some .buildShort := by
  have hpair : id = 0 → flags = 0 → (address, length) ∉ longRowPairs :=
    fun hi hf => (hlong ⟨hi, hf⟩).elim
  rw [classify_of_unclaimed (unclaimed_of_unlisted (fun _ => hshort) hpair), formatRows,
    List.find?_cons_of_neg, List.find?_cons_of_pos]
  · rfl
  · exact buildShortRow_claims ..
  · rw [buildLongRow_claims]
    simpa using hlong

/-! ### Frames -/

variable {row : RowName} {payload : List Byte} {i : Instr}

theorem decode_shortFrame {id : Int} (rest : List Byte)
    (hrow : classify [0xFA, 0xAF, lo8 id, flags, address, length, count] = some row)
    (hlen : payload.length = payloadLength row length count)
    (hops : operandsOf row (lo8 id) flags address length count payload = .ok i) :
    decode (shortFrame id flags address length count payload ++ rest) = .ok (i, rest) := by
  simpa [shortFrame, framed] using decode_of_row hrow hlen hops

/-- The frame of an instruction of a specific SHORT row, given its place in the table and its operands. -/
theorem decode_of_shortRow {id : Int} (rest : List Byte)
    (hmem : shortRow i.row flags address length count ∈ specificRows)
    (hlen : payload.length = payloadLength i.row length count)
    (hops : operandsOf i.row (lo8 id) flags address length count payload = .ok i) :
    decode (shortFrame id flags address length count payload ++ rest) = .ok (i, rest) :=
  decode_shortFrame rest (classify_shortRow hmem) hlen hops

theorem decode_longFrame (rest : List Byte)
    (hrow : classify [0xFA, 0xAF, 0, 0, address, length, count] = some row)
    (hlen : payload.length = payloadLength row length count)
    (hops : operandsOf row 0 0 address length count payload = .ok i) :
    decode (longFrame address length count payload ++ rest) = .ok (i, rest) := by
  simpa [longFrame, framed] using decode_of_row hrow hlen hops

theorem decode_encode_torqueBatch (list : List Int) (rest : List Byte)
    (hwf : (Instr.torqueBatch list).wf = true) :
    decode (encode (.torqueBatch list) ++ rest) = .ok (.torqueBatch list, rest) := by
  simp only [Instr.wf, Bool.and_eq_true, decide_eq_true_eq] at hwf
  obtain ⟨hlist, hcount⟩ := hwf
  refine decode_longFrame rest (classify_longRow (row := .torqueBatch) (by decide)) ?_ ?_
  · rw [torquePayload_length, payloadLength, BitVec.toNat_ofNat, Nat.mod_eq_of_lt (by omega)]
    rfl
  · simp [operandsOf, torqueScalars_torquePayload list hlist]

theorem decode_encode_moveBatch (list : List Int) (rest : List Byte)
    (hwf : (Instr.moveBatch list).wf = true) :
    decode (encode (.moveBatch list) ++ rest) = .ok (.moveBatch list, rest) := by
  simp only [Instr.wf, Bool.and_eq_true, decide_eq_true_eq] at hwf
  obtain ⟨hlist, hcount⟩ := hwf
  refine decode_longFrame rest (classify_longRow (row := .moveBatch) (by decide)) ?_ ?_
  · rw [movePayload_length, payloadLength, BitVec.toNat_ofNat, Nat.mod_eq_of_lt (by omega)]
    rfl
  · simp [operandsOf, moveScalars_movePayload list hlist]

theorem lo8_eq_zero_iff_of_carried {v : Int} (h : carriesByte v = true) : lo8 v = 0 ↔ v = 0 := by
  have hv := dec8_lo8_of_carried h
  constructor
  · intro h0
    rw [← hv, h0]
    rfl
  · rintro rfl
    rfl

theorem decode_encode_buildShort (id : Int) (flags address width : Byte) (data rest : List Byte)
    (hwf : (Instr.buildShort id flags address width data).wf = true) :
    decode (encode (.buildShort id flags address width data) ++ rest) =
      .ok (.buildShort id flags address width data, rest) := by
  simp only [Instr.wf, Bool.and_eq_true, Bool.not_eq_true', decide_eq_true_eq, decide_eq_false_iff_not,
    List.contains_eq_mem] at hwf
  obtain ⟨⟨⟨hid, hlen⟩, hlong⟩, hshort⟩ := hwf
  have hrow := classify_buildShort (id := lo8 id) (count := countRule flags)
    (by rwa [lo8_eq_zero_iff_of_carried hid]) hshort
  exact decode_shortFrame rest hrow hlen (by simp [operandsOf, dec8_lo8_of_carried hid])

theorem decode_encode_buildLong (address width count : Byte) (data rest : List Byte)
    (hwf : (Instr.buildLong address width count data).wf = true) :
    decode (encode (.buildLong address width count data) ++ rest) =
      .ok (.buildLong address width count data, rest) := by
  simp only [Instr.wf, Bool.and_eq_true, Bool.not_eq_true', decide_eq_true_eq, decide_eq_false_iff_not,
    List.contains_eq_mem, Bool.and_eq_false_imp] at hwf
  obtain ⟨⟨hlen, hlong⟩, hshort⟩ := hwf
  exact decode_longFrame rest (classify_buildLong hshort hlong) hlen rfl

end Sys2Proof

open Sys2Proof Sys2Proof.Machine

/-- Settles O42: a specific row by its own header bytes, a format row because well-formedness keeps the specific
rows away; either way the fields carry their operands. -/
theorem decodeInvertsEncode : Obligations.DecodeInvertsEncode := by
  intro i rest hwf
  cases i with
  | torqueBatch list => exact decode_encode_torqueBatch list rest hwf
  | moveBatch list => exact decode_encode_moveBatch list rest hwf
  | buildShort id flags address width data =>
    exact decode_encode_buildShort id flags address width data rest hwf
  | buildLong address width count data =>
    exact decode_encode_buildLong address width count data rest hwf
  | _ =>
    simp only [Instr.wf, Bool.and_eq_true] at hwf
    exact decode_of_shortRow rest (by simp only [Instr.row]; decide) rfl
      (by simp [operandsOf, Instr.row, enc8, enc16, dec8_lo8_of_carried, dec16U_lo8_of_carried,
            dec16S_lo8_of_carried, hwf])
end

section
/-! PROOF. What `decode` reads when it succeeds: header bytes that a row of the table claims, and the operands of
an instruction of this row. -/

namespace Sys2Proof

open Machine

/-! ### What the rows ask of a head -/

/-- Where the mask of a row keeps a byte, a head it claims holds the pattern's byte. -/
theorem OpRow.byte_of_claims {r : OpRow} {head : List Byte} {k : Nat} (h : r.claims head = true)
    (hmask : r.mask[k]? = some 0xFF) : head[k]? = r.pattern[k]? := by
  rw [OpRow.claims, decide_eq_true_eq] at h
  rw [← h, List.getElem?_zipWith, hmask]
  cases head[k]? with
  | none => rfl
  | some b => exact congrArg some (byte_and_ones b).symm

/-- The rows whose frames have format LONG (R87, R97). -/
def RowName.isLong : RowName → Bool
  | .torqueBatch | .moveBatch | .buildLong => true
  | _ => false

/-- Every row of the table asks for the two header bytes (R38, R98). -/
theorem rows_keep_header : ∀ r ∈ specificRows ++ formatRows,
    (r.mask[0]? = some 0xFF ∧ r.pattern[0]? = some 0xFA) ∧
      (r.mask[1]? = some 0xFF ∧ r.pattern[1]? = some 0xAF) := by
  decide

/-- Every LONG row asks for the id byte 0 (R39, R98). -/
theorem longRows_keep_id : ∀ r ∈ specificRows ++ formatRows, r.name.isLong = true →
    r.mask[2]? = some 0xFF ∧ r.pattern[2]? = some 0 := by
  decide

theorem claimed_of_classify {row : RowName} {head : List Byte} (h : classify head = some row) :
    ∃ r ∈ specificRows ++ formatRows, r.name = row ∧ r.claims head = true := by
  obtain ⟨r, hfind, hname⟩ := Option.map_eq_some_iff.mp h
  have hclaims := List.find?_some hfind
  exact ⟨r, List.mem_of_find?_eq_some hfind, hname, hclaims⟩

variable {h0 h1 id flags address length count : Byte} {row : RowName}

theorem header_of_classify (h : classify [h0, h1, id, flags, address, length, count] = some row) :
    h0 = 0xFA ∧ h1 = 0xAF := by
  obtain ⟨r, hmem, -, hclaims⟩ := claimed_of_classify h
  obtain ⟨⟨hm0, hp0⟩, hm1, hp1⟩ := rows_keep_header r hmem
  have e0 := (OpRow.byte_of_claims hclaims hm0).trans hp0
  have e1 := (OpRow.byte_of_claims hclaims hm1).trans hp1
  exact ⟨Option.some.inj e0, Option.some.inj e1⟩

theorem id_of_classify_long (h : classify [h0, h1, id, flags, address, length, count] = some row)
    (hlong : row.isLong = true) : id = 0 := by
  obtain ⟨r, hmem, rfl, hclaims⟩ := claimed_of_classify h
  obtain ⟨hm, hp⟩ := longRows_keep_id r hmem hlong
  have e := (OpRow.byte_of_claims hclaims hm).trans hp
  exact Option.some.inj e

/-! ### What a row's frame stands for -/

/-- Operands are those of an instruction of the row they are read for. -/
theorem row_of_operandsOf {payload : List Byte} {i : Instr}
    (h : operandsOf row id flags address length count payload = .ok i) : i.row = row := by
  unfold operandsOf at h
  split at h
  -- the two batches and BUILD_SHORT answer an error or their own instruction
  case h_15 | h_16 | h_17 => split at h <;> cases h; rfl
  -- the payload fits no row
  case h_19 => cases h
  all_goals cases h; rfl

theorem isLong_row (i : Instr) : i.row.isLong = isLong i := by
  cases i <;> rfl

/-- The payload length by format (R44, R89). -/
theorem payloadLength_eq (row : RowName) (length count : Byte) : payloadLength row length count =
    if row.isLong then length.toNat * count.toNat else length.toNat := by
  cases row <;> rfl

/-- Bytes that decode are the seven header bytes of a row, at least the payload and the checksum byte, and the
rest; the payload is that of the instruction. -/
theorem frame_of_decode {bytes rest : List Byte} {i : Instr} (h : decode bytes = .ok (i, rest)) :
    ∃ h0 h1 id flags address length count tail,
      bytes = h0 :: h1 :: id :: flags :: address :: length :: count :: tail ∧
      classify [h0, h1, id, flags, address, length, count] = some i.row ∧
      payloadLength i.row length count + 1 ≤ tail.length ∧
      rest = tail.drop (payloadLength i.row length count + 1) := by
  unfold decode at h
  split at h
  · next h0 h1 id flags address length count tail =>
    split at h
    · cases h
    · next row hrow =>
      dsimp only at h
      split at h
      · cases h
      · next hlen =>
        split at h
        · next j hops =>
          cases h
          obtain rfl := row_of_operandsOf hops
          exact ⟨h0, h1, id, flags, address, length, count, tail, rfl, hrow, by omega, rfl⟩
        · cases h
  · cases h

end Sys2Proof

open Sys2Proof Sys2Proof.Machine

/-- Settles O43: the row that claims the decoded head asks for the header bytes and, if it is LONG, for the id
byte 0; its format says how long the payload is. -/
theorem decodeReadsOneFrame : Obligations.DecodeReadsOneFrame := by
  intro bytes rest i h
  obtain ⟨h0, h1, id, flags, address, length, count, tail, rfl, hrow, hlen, rfl⟩ := frame_of_decode h
  obtain ⟨rfl, rfl⟩ := header_of_classify hrow
  have hn := payloadLength_eq i.row length count
  rw [isLong_row] at hn
  refine ⟨rfl, payloadLength i.row length count, ?_, ?_, fun hl => ⟨?_, ?_⟩, fun hs => ?_⟩
  · rw [Nat.add_comm 8]
    rfl
  · simp only [List.length_cons]
    omega
  · exact id_of_classify_long hrow ((isLong_row i).trans hl)
  · simpa [hl] using hn
  · simpa [hs] using hn
end

section
/-! PROOF. What a command hands over when no check stands against it: the frame its builder makes, and this is
the encoding of its row. -/

namespace Sys2Proof.Machine

variable {i : Instr} {s : State}

/-! ### What handing over leaves behind -/

theorem sends_handedOver (f : Frame) (s : State) : Sends f.bytes s (handedOver f s) where
  accepted h := by simp [h, emitResult, emitCalls]
  failed h := by simp [h, emitResult, emitCalls]
  frame := ⟨f, rfl, rfl⟩
  parameters := ⟨rfl, rfl⟩
  link := rfl
  caller := rfl
  answers := ⟨rfl, rfl⟩

theorem emitBuilt_sends {built : Option Frame} {bytes : List Byte} (hl : s.link = .opened)
    (h : ∃ f, built = some f ∧ f.bytes = bytes) : ∃ t, emitBuilt built s = .next t ∧ Sends bytes s t := by
  obtain ⟨f, rfl, rfl⟩ := h
  exact ⟨handedOver f s, if_pos hl, sends_handedOver f s⟩

/-! ### When no check stands against a command -/

theorem rejects_of_truncate (h : s.policy = .truncate) : rejects i s = false := by
  simp [rejects, h]

theorem rejects_of_truncate_or_bounded (h : s.policy = .truncate ∨ Bounded s.maxBatch i) :
    rejects i s = false :=
  h.elim rejects_of_truncate fun hb => rejects_of_inBounds ((inBounds_iff_bounded s.maxBatch i).mpr hb)

theorem catalogCommand_sends {d : Descriptor} {id : Int} {payload : List Byte} (hl : s.link = .opened)
    (hr : rejects i s = false) (hlen : payload.length = d.payloadWidth.toNat) :
    ∃ t, catalogCommand i d id payload s = .next t ∧
      Sends (shortFrame id d.flags d.address d.payloadWidth (countRule d.flags) payload) s t := by
  rw [catalogCommand, if_neg (by simp [hl]), if_neg (by simp [hr])]
  exact emitBuilt_sends hl (buildShort_of_length id d.flags d.address hlen)

theorem batchCommand_sends {address width : Byte} {arity : Nat} {list : List Int} {data : List Byte}
    (hl : s.link = .opened) (harity : list.length % arity = 0) (hcount : list.length / arity ≤ s.maxBatch)
    (hmax : s.maxBatch ≤ 255) (hr : rejects i s = false)
    (hlen : data.length = width.toNat * (list.length / arity)) :
    ∃ t, batchCommand i address width arity list data s = .next t ∧
      Sends (longFrame address width (BitVec.ofNat 8 (list.length / arity)) data) s t := by
  have hbyte : (BitVec.ofNat 8 (list.length / arity)).toNat = list.length / arity := by
    rw [BitVec.toNat_ofNat, Nat.mod_eq_of_lt (by omega)]
  rw [batchCommand, if_neg (by simp [hl]), if_neg (by simp [harity]), if_neg (by omega),
    if_neg (by simp [hr])]
  exact emitBuilt_sends hl (buildLong_of_length address (by rw [hbyte, hlen]))

/-! ### The flattened list is the payload of the table -/

theorem flattenTorque_eq (list : List Int) : flattenTorque list = torquePayload list := by
  induction list using torquePayload.induct with
  | case1 id mode rest ih =>
    rw [torquePayload, ← ih]
    rfl
  | case2 list hshort =>
    match list with
    | [] | [_] => simp [flattenTorque, torqueEntries, torquePayload]
    | id :: mode :: rest => exact (hshort id mode rest rfl).elim

theorem flattenMove_eq (list : List Int) : flattenMove list = movePayload list := by
  induction list using movePayload.induct with
  | case1 id pos time rest ih =>
    rw [movePayload, ← ih]
    rfl
  | case2 list hshort =>
    match list with
    | [] | [_] | [_, _] => simp [flattenMove, moveEntries, movePayload]
    | id :: pos :: time :: rest => exact (hshort id pos time rest rfl).elim

end Sys2Proof.Machine

open Sys2Proof Sys2Proof.Machine

/-- Settles O44: each command's path hands over what its builder makes, and this is the row's encoding. -/
theorem commandsEmitTheirTableEncoding : Obligations.CommandsEmitTheirTableEncoding := by
  intro i s hc hl hmax hcount hb
  have hr := rejects_of_truncate_or_bounded hb
  cases i with
  | torqueBatch list =>
    obtain ⟨harity, hn⟩ := hcount
    rw [encode, ← flattenTorque_eq]
    exact batchCommand_sends hl harity hn hmax hr
      (by rw [flattenTorque_eq, torquePayload_length]; rfl)
  | moveBatch list =>
    obtain ⟨harity, hn⟩ := hcount
    rw [encode, ← flattenMove_eq]
    exact batchCommand_sends hl harity hn hmax hr
      (by rw [flattenMove_eq, movePayload_length]; rfl)
  | buildShort | buildLong => cases hc
  | _ => exact catalogCommand_sends hl hr rfl
end

section
/-! PROOF. How long the frames of the two builders and of every command are. -/

namespace Sys2Proof.Machine

/-- A frame is eight bytes longer than its payload (R46). -/
theorem framed_length (id flags address length count : Byte) (payload : List Byte) :
    (framed ([id, flags, address, length, count] ++ payload)).length = 8 + payload.length := by
  simp [framed]
  omega

/-- Whatever BUILD_SHORT answers has eight bytes and its width (R141). -/
theorem buildShort_bytes_length {id flags address width data f}
    (h : buildShort id flags address width data = some f) : f.bytes.length = 8 + width.toNat := by
  by_cases hlen : data.length = width.toNat
  · obtain ⟨g, hg, hbytes⟩ := buildShort_of_length id flags address hlen
    cases hg.symm.trans h
    rw [hbytes, framed_length, hlen]
  · cases (buildShort_of_wrong_length id flags address hlen).symm.trans h

/-- Whatever BUILD_LONG answers has eight bytes and width times count (R141). -/
theorem buildLong_bytes_length {address width count data f}
    (h : buildLong address width count data = some f) :
    f.bytes.length = 8 + width.toNat * count.toNat := by
  by_cases hlen : data.length = width.toNat * count.toNat
  · obtain ⟨g, hg, hbytes⟩ := buildLong_of_length address hlen
    cases hg.symm.trans h
    rw [hbytes, framed_length, hlen]
  · cases (buildLong_of_wrong_length address hlen).symm.trans h

/-- No descriptor of the catalog is wider than six bytes (R36). -/
theorem catalog_payloadWidth_le (op : CatalogOp) : (catalog op).payloadWidth.toNat ≤ 6 := by
  cases op <;> decide

variable {i : Instr} {s t : State} {f : Frame}

theorem catalogCommand_bytes_length {op : CatalogOp} {id : Int} {payload : List Byte}
    (h : catalogCommand i (catalog op) id payload s = .next t) (hf : t.frame = some f) :
    8 ≤ f.bytes.length ∧ f.bytes.length ≤ 14 := by
  have hlen := buildShort_bytes_length (catalogCommand_frame h hf)
  have hwidth := catalog_payloadWidth_le op
  omega

/-- A batch that leaves a frame has no more than `MAX_BATCH` entries (R172). -/
theorem batchCommand_frame_count {address width : Byte} {arity : Nat} {list : List Int} {data : List Byte}
    (h : batchCommand i address width arity list data s = .next t) (hf : t.frame = some f) :
    list.length / arity ≤ s.maxBatch := by
  obtain ⟨-, ⟨-, rfl⟩ | ⟨-, -, rfl⟩ | ⟨-, hcount, -⟩⟩ := batchCommand_next h
  · cases hf
  · cases hf
  · exact hcount

theorem batchCommand_bytes_length {address width : Byte} {arity : Nat} {list : List Int}
    {data : List Byte} (hmax : s.maxBatch ≤ 255)
    (h : batchCommand i address width arity list data s = .next t) (hf : t.frame = some f) :
    f.bytes.length = 8 + width.toNat * (list.length / arity) ∧ list.length / arity ≤ 255 := by
  have hcount := batchCommand_frame_count h hf
  have hlen := buildLong_bytes_length (batchCommand_frame h hf)
  rw [BitVec.toNat_ofNat, Nat.mod_eq_of_lt (by omega)] at hlen
  exact ⟨hlen, by omega⟩

end Sys2Proof.Machine

open Sys2Proof Sys2Proof.Machine

/-- Settles O39: the builders' length law, with at most six payload bytes from the catalog and at most 255 entries
in a batch. -/
theorem frameLengthBounds : Obligations.FrameLengthBounds := by
  intro i s t f hc hmax h hf
  cases i with
  | torqueBatch list =>
    have hlen : f.bytes.length = 8 + 2 * (list.length / 2) ∧ list.length / 2 ≤ 255 :=
      batchCommand_bytes_length (width := torqueBatchWidth) hmax h hf
    omega
  | moveBatch list =>
    have hlen : f.bytes.length = 8 + 5 * (list.length / 3) ∧ list.length / 3 ≤ 255 :=
      batchCommand_bytes_length (width := moveBatchWidth) hmax h hf
    omega
  | buildShort | buildLong => cases hc
  | _ => exact catalogCommand_bytes_length h hf
end

section
/-! PROOF. Bytes that two readings share, words written out, and a table word placed to run. -/

namespace Sys2Proof.Machine

theorem lo8_eq_zero {v : Int} (h : v % 256 = 0) : lo8 v = 0 := by
  rw [lo8, h]
  rfl

/-- For an id that is 0 modulo 256 both builders make one and the same frame of a single byte (R90). -/
theorem buildShort_eq_buildLong {id : Int} (address b : Byte) (h : id % 256 = 0) :
    buildShort id 0x00 address 1 [b] = buildLong address 1 1 [b] := by
  rw [buildShort, buildLong, lo8_eq_zero h]
  rfl

variable {s : State} {i : Instr} {bytes : List Byte}

theorem issueEncoded_of_decodeWhole (h : decodeWhole bytes = some i) :
    issueEncoded bytes s = issue i s := by
  simp [issueEncoded, h]

theorem actionOfBytes_of_command (h : decodeWhole bytes = some i) (hc : isCommand i = true) :
    actionOfBytes bytes = .encoded bytes := by
  simp [actionOfBytes, h, hc]

theorem actionOfBytes_of_builder (h : decodeWhole bytes = some i) (hc : isCommand i = false) :
    actionOfBytes bytes = .evaluate i := by
  simp [actionOfBytes, h, hc]

end Sys2Proof.Machine

open Sys2Proof Sys2Proof.Machine

/-- Settles O15: the two calls make the same frame. -/
theorem idZeroShortFrameReadsAsLong : Obligations.IdZeroShortFrameReadsAsLong := by
  intro id address b hid
  obtain ⟨f, hf, -⟩ := buildLong_of_length address (width := 1) (count := 1) (data := [b]) rfl
  exact ⟨f, f, (buildShort_eq_buildLong address b hid).trans hf, hf, rfl, rfl⟩

/-- Settles O41: each word decoded by evaluation. -/
theorem writtenOutWordsDecode : Obligations.WrittenOutWordsDecode :=
  ⟨by decide, by decide, by decide, by decide, by decide, by decide, by decide⟩

/-- Settles O48: a command's word goes through the port, a builder's word is evaluated, and both come to
`exec`. -/
theorem stepRunsThePlacedTableWord : Obligations.StepRunsThePlacedTableWord := by
  intro s nbits w i h
  cases hc : isCommand i with
  | true =>
    have haction : (s.withFetchWord nbits w).caller = .encoded (tableBytes nbits w) :: s.caller :=
      congrArg (· :: s.caller) (actionOfBytes_of_command h hc)
    rw [step_encoded haction, issueEncoded_of_decodeWhole h, issue_of_command hc]
    rfl
  | false =>
    have haction : (s.withFetchWord nbits w).caller = .evaluate i :: s.caller :=
      congrArg (· :: s.caller) (actionOfBytes_of_builder h hc)
    rw [step_evaluate haction, evaluate_of_builder hc]
    rfl
end

section
/-! PROOF. The checksum of a body whose two header bytes are split off, and the field codec on all integers:
which operands share their bytes, and which bytes come back after decoding. -/

namespace Sys2Proof.Machine

/-! ### The checksum -/

/-- CHECKSUM has a value exactly where R111 does not refuse. -/
theorem checksum_isSome_iff (body : List Byte) : (checksum body).isSome ↔ 3 ≤ body.length := by
  rw [checksum]
  split
  · simpa
  · simp only [Option.isSome_some, true_iff]
    omega

/-- The header bytes only count towards the length that R111 asks for (R110). -/
theorem checksum_header (h0 h1 : Byte) (xs : List Byte) :
    checksum (h0 :: h1 :: xs) = if xs.length + 2 < 3 then none else some (xorBytes xs) :=
  rfl

theorem checksum_header_cons (h0 h1 b : Byte) (rest : List Byte) :
    checksum (h0 :: h1 :: b :: rest) = some (xorBytes (b :: rest)) := by
  simp [checksum_header]

/-- XOR commutes, so the sum does not see the order of its bytes (R113). -/
theorem xorBytes_perm {xs ys : List Byte} (h : xs.Perm ys) : xorBytes xs = xorBytes ys :=
  h.foldl_eq 0

/-! ### The field codec -/

theorem lo8_eq_iff {v : Int} {b : Byte} : lo8 v = b ↔ v % 256 = b.toNat := by
  rw [BitVec.toNat_eq, ← lo8_toNat, Int.natCast_inj]

theorem lo8_eq_lo8_iff {v w : Int} : lo8 v = lo8 w ↔ v % 256 = w % 256 := by
  rw [lo8_eq_iff, lo8_toNat]

/-- Two operands share their two bytes exactly when they agree modulo 65536 (R116, D5). -/
theorem enc16_eq_enc16_iff {v w : Int} : enc16 v = enc16 w ↔ v % 65536 = w % 65536 := by
  simp only [enc16, List.cons.injEq, and_true, lo8_eq_lo8_iff]
  omega

theorem enc8_dec8 (b : Byte) : enc8 (dec8 b) = [b] := by
  simp only [enc8, dec8, List.cons.injEq, and_true, lo8_eq_iff]
  omega

theorem enc16_dec16U (lo hi : Byte) : enc16 (dec16U lo hi) = [lo, hi] := by
  simp only [enc16, dec16U, List.cons.injEq, and_true, lo8_eq_iff]
  omega

/-- The signed and the unsigned reading of two bytes differ by a multiple of 65536 (R17, R123). -/
theorem dec16S_emod (lo hi : Byte) : dec16S lo hi % 65536 = dec16U lo hi % 65536 := by
  rw [dec16S, dec16U, sext16]
  split <;> omega

theorem enc16_dec16S (lo hi : Byte) : enc16 (dec16S lo hi) = [lo, hi] :=
  (enc16_eq_enc16_iff.mpr (dec16S_emod lo hi)).trans (enc16_dec16U lo hi)

/-! ### The operands a field gives back -/

theorem dec8_lo8_eq_self_iff (v : Int) : dec8 (lo8 v) = v ↔ 0 ≤ v ∧ v ≤ 255 := by
  rw [dec8_lo8]
  omega

theorem dec16U_lo8_eq_self_iff (v : Int) :
    dec16U (lo8 v) (lo8 (v / 256)) = v ↔ 0 ≤ v ∧ v ≤ 65535 := by
  rw [dec16U_lo8]
  omega

theorem dec16S_lo8_eq_self_iff (v : Int) :
    dec16S (lo8 v) (lo8 (v / 256)) = v ↔ -32768 ≤ v ∧ v ≤ 32767 := by
  rw [dec16S_lo8]
  omega

end Sys2Proof.Machine

open Sys2Proof Sys2Proof.Machine

/-- Settles O6: a permutation keeps both the length, on which the refusal turns, and the XOR. -/
theorem checksumIgnoresByteOrder : Obligations.ChecksumIgnoresByteOrder := by
  intro h0 h1 xs ys hperm
  rw [checksum_header, checksum_header, hperm.length_eq, xorBytes_perm hperm]

/-- Settles O7: the three ranges of the operands, and the three encodings of decoded bytes. -/
theorem fieldRoundTripsExactlyInRange : Obligations.FieldRoundTripsExactlyInRange :=
  ⟨dec8_lo8_eq_self_iff, dec16U_lo8_eq_self_iff, dec16S_lo8_eq_self_iff, enc8_dec8, enc16_dec16U,
    enc16_dec16S⟩

/-- Settles O8: each byte by its value, and equality of the bytes by congruence modulo 65536. -/
theorem enc16KeepsTheLowSixteenBits : Obligations.Enc16KeepsTheLowSixteenBits := by
  refine ⟨fun v => ⟨lo8 v, lo8 (v / 256), rfl, ?_, ?_⟩, fun v w => enc16_eq_enc16_iff⟩
  · rw [lo8_toNat, lo16]
    omega
  · rw [lo8_toNat, lo16]
    omega

/-- Settles O4: the branches of CHECKSUM's own test. -/
theorem checksumNeedsThreeBytes : Obligations.ChecksumNeedsThreeBytes :=
  checksum_isSome_iff

/-- Settles O5: with the header split off, the checksum is the XOR of the rest. -/
theorem checksumStartsAtIndexTwo : Obligations.ChecksumStartsAtIndexTwo := by
  refine ⟨fun h0 h1 b => ?_, fun h0 h1 b c rest => ?_, fun h0 h1 k0 k1 rest => ?_⟩
  · simp [checksum_header_cons, xorBytes]
  · rw [checksum_header_cons, checksum_header_cons, ← List.cons_append, xorBytes_append_single,
      Option.map_some]
  · rw [checksum_header, checksum_header]

/-- Settles O9: the byte is `lo8 v`. -/
theorem enc8KeepsTheLowEightBits : Obligations.Enc8KeepsTheLowEightBits :=
  fun v => ⟨lo8 v, rfl, lo8_toNat v⟩
end

section
/-! PROOF. The frames of the two builder functions as bytes, and the count rule by the value of the flags
byte. -/

namespace Sys2Proof.Machine

/-- A well-formed frame's wire bytes begin with the header (R85). -/
theorem Frame.WellFormed.bytes_take_two {f : Frame} (h : f.WellFormed) :
    f.bytes.take 2 = [0xFA, 0xAF] := by
  obtain ⟨h0, h1⟩ := h.header
  simp [Frame.bytes, h0, h1]

/-- A bit of the high nibble is set exactly from `0x10` on. -/
theorem highNibble_eq_zero_iff : ∀ flags : Byte, flags &&& 0xF0 = 0 ↔ flags.toNat < 0x10 := by
  decide

/-- Below `0x10` the low nibble is the whole byte. -/
theorem lowNibble_eq_self {flags : Byte} (h : flags.toNat < 0x10) : flags &&& 0x0F = flags :=
  BitVec.eq_of_toNat_eq (Nat.and_two_pow_sub_one_of_lt_two_pow (n := 4) h)

/-- The count rule tests the value of the flags byte against `0x0F` (R132). -/
theorem countRule_eq (flags : Byte) : countRule flags = if 0x0F ≤ flags.toNat then 0 else 1 := by
  refine if_congr ?_ rfl rfl
  by_cases hhigh : flags.toNat < 0x10
  · have hlow : flags = 0x0F ↔ 0x0F ≤ flags.toNat := by
      rw [← BitVec.toNat_inj, show (0x0F : Byte).toNat = 0x0F from rfl]
      omega
    simp only [ne_eq, highNibble_eq_zero_iff, hhigh, not_true, false_or, lowNibble_eq_self hhigh, hlow]
  · have hbit := mt (highNibble_eq_zero_iff flags).mp hhigh
    exact iff_of_true (.inl hbit) (by omega)

end Sys2Proof.Machine

open Sys2Proof Sys2Proof.Machine

/-- Settles O11: the built frame is the framing of its bytes from offset 2 on, and the test on the data's length
is the only way to no value. -/
theorem buildShortLaysOutTheFrame : Obligations.BuildShortLaysOutTheFrame :=
  fun id flags address _ _ =>
    ⟨buildShort_of_length id flags address, buildShort_of_wrong_length id flags address⟩

/-- Settles O12: as for BUILD_SHORT, with the exact product of width and count in the test. -/
theorem buildLongLaysOutTheFrame : Obligations.BuildLongLaysOutTheFrame :=
  fun address _ _ _ => ⟨buildLong_of_length address, buildLong_of_wrong_length address⟩

/-- Settles O13: the length from the layout, the header and the residue from the frame being well formed. -/
theorem builtFramesObeyTheLengthLaw : Obligations.BuiltFramesObeyTheLengthLaw := by
  refine ⟨fun id flags address width data f h => ?_, fun address width count data f h => ?_⟩
  · have hwf := buildShort_wellFormed h
    exact ⟨buildShort_bytes_length h, hwf.bytes_take_two, hwf.residue⟩
  · have hwf := buildLong_wellFormed h
    exact ⟨buildLong_bytes_length h, hwf.bytes_take_two, hwf.residue⟩

/-- Settles O10: the two sides of the count rule's test against `0x0F`. -/
theorem countRuleOverAllFlags : Obligations.CountRuleOverAllFlags := by
  intro flags
  rw [countRule_eq]
  exact ⟨fun h => if_neg (by omega), fun h => if_pos h⟩
end

section
/-! PROOF. The fourteen catalog operations. The common path decides by the table of bounds between raising and
handing over, so one law holds of all of them: the bounds are the operation's row of that table, the bytes its
table encoding. -/

namespace Sys2Proof.Machine

variable {i : Instr} {s : State} {d : Descriptor} {id : Int} {payload : List Byte} {bounds : Prop}

/-- `reject` turns away exactly what the table does not bound (R189, R192). -/
theorem rejects_iff : rejects i s = true ↔ s.policy = .reject ∧ ¬ Bounded s.maxBatch i := by
  simp [rejects, ← inBounds_iff_bounded]

theorem catalogCommand_raises (hl : s.link = .opened) (hr : rejects i s = true) :
    ∃ t, catalogCommand i d id payload s = .next t ∧ Raises .outOfRangeParameter s t := by
  rw [catalogCommand, if_neg (by simp [hl]), if_pos hr]
  exact ⟨_, rfl, rfl⟩

/-- An instruction that runs by the common path hands over BUILD_SHORT's frame of its descriptor and payload, or
raises out of its bounds (R149). -/
theorem catalogLaw_of_exec_eq (hexec : exec i = catalogCommand i d id payload)
    (hlen : payload.length = d.payloadWidth.toNat) (hbounds : ∀ maxBatch, Bounded maxBatch i ↔ bounds) :
    CatalogLaw i bounds
      (shortFrame id d.flags d.address d.payloadWidth (countRule d.flags) payload) := by
  intro s hl
  rw [hexec, ← hbounds s.maxBatch]
  exact ⟨fun h => catalogCommand_sends hl (rejects_of_truncate_or_bounded h) hlen,
    fun h => catalogCommand_raises hl (rejects_iff.mpr h)⟩

/-- The commands of format SHORT are the catalog operations: each obeys the law with its table encoding. -/
theorem catalogLaw_encode (hc : isCommand i = true) (hshort : isLong i = false)
    (hbounds : ∀ maxBatch, Bounded maxBatch i ↔ bounds) : CatalogLaw i bounds (encode i) := by
  cases i with
  | torqueBatch | moveBatch => cases hshort
  | buildShort | buildLong => cases hc
  | _ => exact catalogLaw_of_exec_eq rfl rfl hbounds

/-- The frame of a flag-only operation, its checksum written out (R150 to R152). -/
theorem shortFrame_flagOnly (id : Int) (flags : Byte) : shortFrame id flags 0xFF 0x00 0x00 [] =
    [0xFA, 0xAF, lo8 id, flags, 0xFF, 0x00, 0x00, lo8 id ^^^ (flags ^^^ 0xFF)] := by
  simp [shortFrame, framed, xorBytes, BitVec.xor_assoc]

/-- The law of a flag-only operation, by the flags of its row. -/
theorem catalogLaw_flagOnly {flags : Byte} (hc : isCommand i = true) (hshort : isLong i = false)
    (hbounds : ∀ maxBatch, Bounded maxBatch i ↔ bounds)
    (hencode : encode i = shortFrame id flags 0xFF 0x00 0x00 []) :
    CatalogLaw i bounds
      [0xFA, 0xAF, lo8 id, flags, 0xFF, 0x00, 0x00, lo8 id ^^^ (flags ^^^ 0xFF)] := by
  rw [← shortFrame_flagOnly, ← hencode]
  exact catalogLaw_encode hc hshort hbounds

end Sys2Proof.Machine

open Sys2Proof Sys2Proof.Machine

/-- Settles O16: the three flag bytes, each XORed with the address `0xFF` into the checksum. -/
theorem flagOnlyOperations : Obligations.FlagOnlyOperations :=
  fun _ =>
    ⟨catalogLaw_flagOnly rfl rfl (fun _ => Iff.rfl) rfl,
      catalogLaw_flagOnly rfl rfl (fun _ => Iff.rfl) rfl,
      catalogLaw_flagOnly rfl rfl (fun _ => Iff.rfl) rfl⟩

/-- Settles O17: the catalog law, the frame and the bounds being the row's own. -/
theorem setIdOperation : Obligations.SetIdOperation :=
  fun _ _ => catalogLaw_encode rfl rfl fun _ => Iff.rfl

/-- Settles O18: the catalog law for each of the three registers. -/
theorem oneByteConfigurationOperations : Obligations.OneByteConfigurationOperations :=
  fun _ _ =>
    ⟨catalogLaw_encode rfl rfl fun _ => Iff.rfl, catalogLaw_encode rfl rfl fun _ => Iff.rfl,
      catalogLaw_encode rfl rfl fun _ => Iff.rfl⟩

/-- Settles O19: the catalog law; the encoding has the limits in the order of D7. -/
theorem setAngleLimitOperation : Obligations.SetAngleLimitOperation :=
  fun _ _ _ => catalogLaw_encode rfl rfl fun _ => Iff.rfl

/-- Settles O20: the catalog law, with one word bounded and encoded. -/
theorem setTempLimitOperation : Obligations.SetTempLimitOperation :=
  fun _ _ => catalogLaw_encode rfl rfl fun _ => Iff.rfl

/-- Settles O21: the catalog law; the encoding has the operands in the order of D7. -/
theorem setComplianceOperation : Obligations.SetComplianceOperation :=
  fun _ _ _ _ _ _ => catalogLaw_encode rfl rfl fun _ => Iff.rfl

/-- Settles O22: the catalog law; the encoding has the position before the duration (D7). -/
theorem setMoveOperation : Obligations.SetMoveOperation :=
  fun _ _ _ => catalogLaw_encode rfl rfl fun _ => Iff.rfl

/-- Settles O23: the catalog law for each of the two registers. -/
theorem maxTorqueAndPidOperations : Obligations.MaxTorqueAndPidOperations :=
  fun _ _ =>
    ⟨catalogLaw_encode rfl rfl fun _ => Iff.rfl, catalogLaw_encode rfl rfl fun _ => Iff.rfl⟩

/-- Settles O24: the catalog law; the table bounds the mode by 0, 1 or 2. -/
theorem setTorqueOperation : Obligations.SetTorqueOperation :=
  fun _ _ => catalogLaw_encode rfl rfl fun _ => Iff.rfl
end

section
/-! PROOF. Flattened batches as lanes of one width: lane `k` is a function of entry `k`'s scalars, and the
flattened list is the lanes in the order of the entries (R173, R180). -/

namespace Sys2Proof.Machine

/-- The bytes of entry `k` of a flat torque list (R175). -/
def torqueLane (list : List Int) (k : Nat) : List Byte :=
  [lo8 (scalar list (2 * k)), lo8 (scalar list (2 * k + 1))]

/-- The bytes of entry `k` of a flat move list (R178). -/
def moveLane (list : List Int) (k : Nat) : List Byte :=
  [lo8 (scalar list (3 * k)), lo8 (scalar list (3 * k + 1)), lo8 (scalar list (3 * k + 1) / 256),
    lo8 (scalar list (3 * k + 2)), lo8 (scalar list (3 * k + 2) / 256)]

/-- The lanes of a list with one entry more: the first one's, then those of the list behind it. -/
theorem flatMap_range_succ (f : Nat → List Byte) (n : Nat) :
    (List.range (n + 1)).flatMap f = f 0 ++ (List.range n).flatMap fun k => f (k + 1) := by
  rw [List.range_succ_eq_map, List.flatMap_cons, List.flatMap_map]

theorem torquePayload_eq_lanes (list : List Int) :
    torquePayload list = (List.range (list.length / 2)).flatMap (torqueLane list) := by
  induction list using torquePayload.induct with
  | case1 id mode rest ih =>
    have hlen : (id :: mode :: rest).length / 2 = rest.length / 2 + 1 := by
      simp only [List.length_cons]
      omega
    rw [torquePayload, ih, hlen, flatMap_range_succ]
    rfl
  | case2 list hshort =>
    match list with
    | [] | [_] => simp [torquePayload]
    | id :: mode :: rest => exact (hshort id mode rest rfl).elim

theorem movePayload_eq_lanes (list : List Int) :
    movePayload list = (List.range (list.length / 3)).flatMap (moveLane list) := by
  induction list using movePayload.induct with
  | case1 id pos time rest ih =>
    have hlen : (id :: pos :: time :: rest).length / 3 = rest.length / 3 + 1 := by
      simp only [List.length_cons]
      omega
    rw [movePayload, ih, hlen, flatMap_range_succ]
    rfl
  | case2 list hshort =>
    match list with
    | [] | [_] | [_, _] => simp [movePayload]
    | id :: pos :: time :: rest => exact (hshort id pos time rest rfl).elim

/-- Of lanes of width `w` in a row, lane `k` is the `w` bytes from `k * w` on. -/
theorem take_drop_lanes {w n k : Nat} (f : Nat → List Byte) (hw : ∀ j, (f j).length = w) (hk : k < n) :
    (((List.range n).flatMap f).drop (k * w)).take w = f k := by
  induction n generalizing k f with
  | zero => omega
  | succ n ih =>
    rw [flatMap_range_succ]
    cases k with
    | zero => rw [Nat.zero_mul, List.drop_zero, List.take_left' (hw 0)]
    | succ k =>
      rw [Nat.succ_mul, Nat.add_comm, ← List.drop_drop, List.drop_left' (hw 0)]
      exact ih (fun j => f (j + 1)) (fun j => hw (j + 1)) (by omega)

end Sys2Proof.Machine

open Sys2Proof Sys2Proof.Machine

/-- Settles O29: the flattened lists are the lanes in a row, of width 2 and of width 5. -/
theorem lanesStandInListOrder : Obligations.LanesStandInListOrder := by
  refine ⟨fun list _ => ?_, fun list _ => ?_⟩
  · rw [flattenTorque_eq]
    refine ⟨torquePayload_length list, fun k hk => ?_⟩
    rw [torquePayload_eq_lanes]
    exact take_drop_lanes (torqueLane list) (fun _ => rfl) hk
  · rw [flattenMove_eq]
    refine ⟨movePayload_length list, fun k hk => ?_⟩
    rw [movePayload_eq_lanes]
    exact take_drop_lanes (moveLane list) (fun _ => rfl) hk
end

section
/-! PROOF. The two batch operations. The common path R170 decides between the two encoding errors and handing
over, so one law holds of both; the empty batch is its case without an entry. -/

namespace Sys2Proof.Machine

variable {i : Instr} {s : State} {address width : Byte} {arity : Nat} {list : List Int} {data : List Byte}

/-! ### What the common path ends in on an open link -/

theorem batchCommand_malformed (hl : s.link = .opened) (harity : list.length % arity ≠ 0) :
    ∃ t, batchCommand i address width arity list data s = .next t ∧ Raises .malformedBatchInput s t := by
  rw [batchCommand, if_neg (by simp [hl]), if_pos harity]
  exact ⟨_, rfl, rfl⟩

/-- An overlong batch ends in the same error as one that `reject` turns away (R172). -/
theorem batchCommand_outOfRange (hl : s.link = .opened) (harity : list.length % arity = 0)
    (h : s.maxBatch < list.length / arity ∨ rejects i s = true) :
    ∃ t, batchCommand i address width arity list data s = .next t ∧ Raises .outOfRangeParameter s t := by
  rw [batchCommand, if_neg (by simp [hl]), if_neg (by simp [harity])]
  by_cases hcount : list.length / arity > s.maxBatch
  · rw [if_pos hcount]
    exact ⟨_, rfl, rfl⟩
  · rw [if_neg hcount, if_pos (h.resolve_left hcount)]
    exact ⟨_, rfl, rfl⟩

/-- The empty batch that no check turns away is sent with no payload, whatever `MAX_BATCH` (D10). -/
theorem batchCommand_nil_sends (hl : s.link = .opened) (hr : rejects i s = false) :
    ∃ t, batchCommand i address width arity [] [] s = .next t ∧ Sends (longFrame address width 0 []) s t := by
  rw [batchCommand, if_neg (by simp [hl]), if_neg (by simp), if_neg (by simp), if_neg (by simp [hr]),
    List.length_nil, Nat.zero_div]
  exact emitBuilt_sends hl (buildLong_of_length address rfl)

/-! ### The law of a batch operation -/

/-- The law of a batch operation on an open link (R170): a list whose length is no multiple of the arity is
malformed; too many entries, and under `reject` no entry or one out of range, end in `OutOfRangeParameter`;
otherwise exactly these bytes are handed over. -/
def BatchLaw (i : Instr) (arity : Nat) (list : List Int) (range : Prop) (bytes : List Byte) : Prop :=
  ∀ s : State, s.link = .opened → s.maxBatch ≤ 255 →
    (list.length % arity ≠ 0 → ∃ t, exec i s = .next t ∧ Raises .malformedBatchInput s t) ∧
    (list.length % arity = 0 →
      (s.maxBatch < list.length / arity ∨ (s.policy = .reject ∧ ¬ (1 ≤ list.length / arity ∧ range))) →
      ∃ t, exec i s = .next t ∧ Raises .outOfRangeParameter s t) ∧
    (list.length % arity = 0 → list.length / arity ≤ s.maxBatch →
      (s.policy = .truncate ∨ (1 ≤ list.length / arity ∧ range)) →
      ∃ t, exec i s = .next t ∧ Sends bytes s t)

/-- An instruction that runs by the common path, with data of its width per entry and the table's bounds on
count and entries, obeys the law with BUILD_LONG's frame. -/
theorem batchLaw_of_exec_eq {range : Prop} (hexec : exec i = batchCommand i address width arity list data)
    (hlen : data.length = width.toNat * (list.length / arity))
    (hbounds : ∀ maxBatch, Bounded maxBatch i ↔
      (1 ≤ list.length / arity ∧ list.length / arity ≤ maxBatch) ∧ range) :
    BatchLaw i arity list range
      (longFrame address width (BitVec.ofNat 8 (list.length / arity)) data) := by
  intro s hl hmax
  rw [hexec]
  refine ⟨batchCommand_malformed hl, fun harity h => ?_, fun harity hcount h => ?_⟩
  · have hraise : s.maxBatch < list.length / arity ∨ rejects i s = true :=
      h.imp_right fun ⟨hp, hout⟩ =>
        rejects_iff.mpr ⟨hp, fun hb => hout (((hbounds s.maxBatch).mp hb).imp_left And.left)⟩
    exact batchCommand_outOfRange hl harity hraise
  · have hb : s.policy = .truncate ∨ Bounded s.maxBatch i :=
      h.imp_right fun ⟨hone, hrange⟩ => (hbounds s.maxBatch).mpr ⟨⟨hone, hcount⟩, hrange⟩
    exact batchCommand_sends hl harity hcount hmax (rejects_of_truncate_or_bounded hb) hlen

theorem batchLaw_torqueBatch (list : List Int) :
    BatchLaw (.torqueBatch list) 2 list (TorqueRange list) (encode (.torqueBatch list)) := by
  rw [encode, ← flattenTorque_eq]
  exact batchLaw_of_exec_eq rfl (by rw [flattenTorque_eq, torquePayload_length]; rfl) fun _ => Iff.rfl

theorem batchLaw_moveBatch (list : List Int) :
    BatchLaw (.moveBatch list) 3 list (MoveRange list) (encode (.moveBatch list)) := by
  rw [encode, ← flattenMove_eq]
  exact batchLaw_of_exec_eq rfl (by rw [flattenMove_eq, movePayload_length]; rfl) fun _ => Iff.rfl

end Sys2Proof.Machine

open Sys2Proof Sys2Proof.Machine

/-- Settles O25: the batch law, the encoding's payload being the lanes of two bytes. -/
theorem torqueBatchOperation : Obligations.TorqueBatchOperation := by
  intro list
  have h := batchLaw_torqueBatch list
  rw [encode, torquePayload_eq_lanes] at h
  exact h

/-- Settles O26: the batch law, the encoding's payload being the lanes of five bytes. -/
theorem moveBatchOperation : Obligations.MoveBatchOperation := by
  intro list
  have h := batchLaw_moveBatch list
  rw [encode, movePayload_eq_lanes] at h
  exact h

/-- Settles O28: the count is checked before the policy (D9), and the empty batch fails only `reject`'s check
(D10). -/
theorem entryCountAndTheEmptyBatch : Obligations.EntryCountAndTheEmptyBatch := by
  intro s hl
  refine ⟨fun list harity hcount => ?_, fun list harity hcount => ?_, fun hp => ⟨?_, ?_⟩,
    fun hp => ⟨?_, ?_⟩⟩
  · exact batchCommand_outOfRange hl harity (.inl hcount)
  · exact batchCommand_outOfRange hl harity (.inl hcount)
  · exact batchCommand_nil_sends hl (rejects_of_truncate hp)
  · exact batchCommand_nil_sends hl (rejects_of_truncate hp)
  · exact batchCommand_outOfRange hl rfl (.inr (rejects_iff.mpr ⟨hp, by simp [Bounded]⟩))
  · exact batchCommand_outOfRange hl rfl (.inr (rejects_iff.mpr ⟨hp, by simp [Bounded]⟩))
end

section
/-! PROOF. The results of an instruction. An encoding error has one of few causes and leaves everything but the
two output fields as it was; a command without one has handed over its frame. -/

namespace Sys2Proof.Machine

variable {i : Instr} {s t : State} {e : Result}

/-! ### The causes of an encoding error -/

/-- Why an instruction ends in an encoding error: a list that misses its arity (R171), more than `MAX_BATCH`
entries (R172), or the bounds that `reject` enforces (R189). -/
inductive ErrorCause (s : State) : Instr → Result → Prop where
  | torqueArity (list : List Int) (h : list.length % 2 ≠ 0) :
      ErrorCause s (.torqueBatch list) .malformedBatchInput
  | moveArity (list : List Int) (h : list.length % 3 ≠ 0) :
      ErrorCause s (.moveBatch list) .malformedBatchInput
  | torqueCount (list : List Int) (h : s.maxBatch < list.length / 2) :
      ErrorCause s (.torqueBatch list) .outOfRangeParameter
  | moveCount (list : List Int) (h : s.maxBatch < list.length / 3) :
      ErrorCause s (.moveBatch list) .outOfRangeParameter
  | rejected (i : Instr) (h : rejects i s = true) : ErrorCause s i .outOfRangeParameter

section
variable (he : e = .malformedBatchInput ∨ e = .outOfRangeParameter)
include he

/-- After a frame was handed over the result is no encoding error. -/
theorem handedOver_resultPort_ne_encodingError (f : Frame) : (handedOver f s).resultPort ≠ some e := by
  obtain ⟨hm, ho⟩ := emitResult_ne_encodingError (nextAnswer s)
  rcases he with rfl | rfl
  · simpa using hm
  · simpa using ho

theorem catalogCommand_encodingError {d : Descriptor} {id : Int} {payload : List Byte}
    (h : catalogCommand i d id payload s = .next t) (ht : t.resultPort = some e) :
    e = .outOfRangeParameter ∧ rejects i s = true := by
  obtain ⟨-, ⟨hr, rfl⟩ | ⟨-, f, -, rfl⟩⟩ := catalogCommand_next h
  · cases ht
    exact ⟨rfl, hr⟩
  · exact (handedOver_resultPort_ne_encodingError he f ht).elim

theorem batchCommand_encodingError {address width : Byte} {arity : Nat} {list : List Int} {data : List Byte}
    (h : batchCommand i address width arity list data s = .next t) (ht : t.resultPort = some e) :
    (e = .malformedBatchInput ∧ list.length % arity ≠ 0) ∨
      (e = .outOfRangeParameter ∧ (s.maxBatch < list.length / arity ∨ rejects i s = true)) := by
  obtain ⟨-, ⟨ha, rfl⟩ | ⟨-, hc, rfl⟩ | ⟨-, -, -, f, -, rfl⟩⟩ := batchCommand_next h
  · cases ht
    exact .inl ⟨rfl, ha⟩
  · cases ht
    exact .inr ⟨rfl, hc⟩
  · exact (handedOver_resultPort_ne_encodingError he f ht).elim

/-- An instruction that ends in an encoding error had a cause. -/
theorem exec_errorCause (h : exec i s = .next t) (ht : t.resultPort = some e) : ErrorCause s i e := by
  cases i with
  | torqueBatch list =>
    obtain ⟨rfl, ha⟩ | ⟨rfl, hc | hr⟩ := batchCommand_encodingError he h ht
    · exact .torqueArity list ha
    · exact .torqueCount list hc
    · exact .rejected _ hr
  | moveBatch list =>
    obtain ⟨rfl, ha⟩ | ⟨rfl, hc | hr⟩ := batchCommand_encodingError he h ht
    · exact .moveArity list ha
    · exact .moveCount list hc
    · exact .rejected _ hr
  | buildShort | buildLong =>
    obtain ⟨f, -, rfl⟩ := evaluateBuilder_next h
    cases ht
  | _ =>
    obtain ⟨rfl, hr⟩ := catalogCommand_encodingError he h ht
    exact .rejected _ hr

/-- An instruction that ends in an encoding error has changed the output fields alone (R196). -/
theorem exec_raises (h : exec i s = .next t) (ht : t.resultPort = some e) : Raises e s t := by
  cases exec_next h with
  | raised =>
    cases ht
    rfl
  | sent f => exact (handedOver_resultPort_ne_encodingError he f ht).elim
  | built => cases ht

end

end Sys2Proof.Machine

open Sys2Proof Sys2Proof.Machine

/-- Settles O30: each check of `reject` decides its range, and the batch checks recurse as the positions count. -/
theorem inBoundsIsTheTable : Obligations.InBoundsIsTheTable :=
  inBounds_iff_bounded

/-- Settles O31: only an instruction that raises ends in an encoding error. -/
theorem encodingErrorsTouchNothing : Obligations.EncodingErrorsTouchNothing := by
  intro i s t h hport
  rcases hport with ht | ht
  · rw [ht]
    exact exec_raises (.inl rfl) h ht
  · rw [ht]
    exact exec_raises (.inr rfl) h ht

/-- Settles O27: of the causes of an encoding error only the missed arity is `MalformedBatchInput`, and it is
checked first. -/
theorem malformedExactlyWhenArityFails : Obligations.MalformedExactlyWhenArityFails := by
  intro i s hl _
  refine ⟨⟨fun ⟨t, h, ht⟩ => ?_, fun harity => ?_⟩, fun t h ht => exec_raises (.inl rfl) h ht⟩
  · cases exec_errorCause (.inl rfl) h ht with
    | torqueArity list ha => exact .inl ⟨list, rfl, ha⟩
    | moveArity list ha => exact .inr ⟨list, rfl, ha⟩
  · have hraises : ∃ t, exec i s = .next t ∧ Raises .malformedBatchInput s t := by
      obtain ⟨list, rfl, ha⟩ | ⟨list, rfl, ha⟩ := harity
      · exact batchCommand_malformed hl ha
      · exact batchCommand_malformed hl ha
    obtain ⟨t, h, rfl⟩ := hraises
    exact ⟨_, h, rfl⟩

/-- Settles O37: `truncate` leaves of the causes of `OutOfRangeParameter` only the entry count. -/
theorem truncateRejectsOnlyOverlongBatches : Obligations.TruncateRejectsOnlyOverlongBatches := by
  intro i s t hp h ht
  cases exec_errorCause (.inr rfl) h ht with
  | torqueCount list hc => exact .inl ⟨list, rfl, hc⟩
  | moveCount list hc => exact .inr ⟨list, rfl, hc⟩
  | rejected _ hr =>
    rw [rejects_of_truncate hp] at hr
    cases hr

/-- Settles O32: a command that does not raise hands its frame over, and the transport's answer decides the
rest. -/
theorem oneWritePerCommand : Obligations.OneWritePerCommand := by
  intro i s t hc h hm ho
  cases exec_next h with
  | raised e he =>
    rcases he with rfl | rfl
    · exact (hm rfl).elim
    · exact (ho rfl).elim
  | sent f hf =>
    refine ⟨f, rfl, hf, ?_⟩
    have hsends := sends_handedOver f s
    cases ha : nextAnswer s with
    | accepted => exact .inl ⟨rfl, hsends.accepted ha⟩
    | failed => exact .inr ⟨rfl, hsends.failed ha⟩
  | built _ _ hb =>
    rw [hc] at hb
    cases hb

/-- Settles O33: a result that is no encoding error is one of the two answers to a write. -/
theorem commandsReturnAClosedSetOfResults : Obligations.CommandsReturnAClosedSetOfResults := by
  intro i s t hc h
  by_cases hm : t.resultPort = some .malformedBatchInput
  · exact .inr (.inr (.inl hm))
  · by_cases ho : t.resultPort = some .outOfRangeParameter
    · exact .inr (.inr (.inr ho))
    · obtain ⟨f, -, -, ⟨-, hr, -⟩ | ⟨-, hr, -⟩⟩ := oneWritePerCommand i s t hc h hm ho
      · exact .inl hr
      · exact .inr (.inl hr)

/-- Settles O58, by induction along the calls: an accepted write carries its frame, every other call nothing. -/
theorem linkCarriesTheAcceptedFrames : Obligations.LinkCarriesTheAcceptedFrames := by
  intro k calls hfailed
  induction k, calls using receivedBytes.induct with
  | case1 => rfl
  | case3 k bytes rest => exact (hfailed bytes List.mem_cons_self).elim
  | case2 k bytes rest ih | case4 k _ _ rest ih | case5 k rest ih | case6 k rest ih =>
    rw [receivedBytes, List.flatMap_cons, ih fun b hb => hfailed b (List.mem_cons_of_mem _ hb)]
    rfl
end

section
/-! PROOF. The caller's hold on the link: what a step does with an open, a close, two commands at once or no
action, what a command meets on a closed link, and how the calls of a step account for the link. -/

namespace Sys2Proof.Machine

variable {s t : State} {i : Instr} {rest : List CallerAction}

/-! ### The step, by the caller's next action -/

theorem step_idle (h : s.caller = []) : step s = .next (idle s) := by
  simp [step, h]

theorem step_openLink {config : LinkConfig} (h : s.caller = .openLink config :: rest) :
    step s = openTransport config { s with caller := rest } := by
  simp [step, h]

theorem step_closeLink (h : s.caller = .closeLink :: rest) :
    step s = closeTransport { s with caller := rest } := by
  simp [step, h]

theorem step_together {j : Instr} (h : s.caller = .together i j :: rest) :
    step s = .refused .concurrentCommands := by
  simp [step, h]

/-! ### The operations on the link -/

theorem openTransport_of_closed (config : LinkConfig) (hl : s.link = .closed) :
    openTransport config s = .next { answered s with
      link := openedLink (nextAnswer s), frame := none, resultPort := openResult (nextAnswer s),
      calls := s.calls ++ [.openLink (transportConfig config) (nextAnswer s)] } :=
  if_pos hl

theorem closeTransport_of_opened (hl : s.link = .opened) :
    closeTransport s = .next { idle s with link := .closed, calls := s.calls ++ [.close] } :=
  if_pos hl

/-! ### Commands on a closed link -/

section
variable (hl : s.link = .closed)
include hl

theorem catalogCommand_of_closed {d : Descriptor} {id : Int} {payload : List Byte} :
    catalogCommand i d id payload s = .refused .linkNotOpen :=
  if_pos (by simp [hl])

theorem batchCommand_of_closed {address width : Byte} {arity : Nat} {list : List Int} {data : List Byte} :
    batchCommand i address width arity list data s = .refused .linkNotOpen :=
  if_pos (by simp [hl])

/-- Both command paths test the link before everything else (log 3). -/
theorem exec_of_closed (hc : isCommand i = true) : exec i s = .refused .linkNotOpen := by
  cases i with
  | torqueBatch | moveBatch => exact batchCommand_of_closed hl
  | buildShort | buildLong => cases hc
  | _ => exact catalogCommand_of_closed hl

end

/-! ### The link that the calls account for -/

/-- The calls that `t` has beyond those of `s` lead from the link of `s` to the link of `t` (R218). -/
def LinkAccounted (s t : State) : Prop :=
  ∃ more, t.calls = s.calls ++ more ∧ t.link = linkAfter s.link more

/-- No call accounts for a link that stays. -/
theorem LinkAccounted.of_unchanged (hcalls : t.calls = s.calls) (hlink : t.link = s.link) :
    LinkAccounted s t :=
  ⟨[], by simp [hcalls], hlink⟩

/-- Writing and flushing do not move the link (R206). -/
theorem linkAfter_emitCalls (link : Link) (bytes : List Byte) (a : TransportAnswer) :
    linkAfter link (emitCalls bytes a) = link := by
  cases a <;> rfl

/-- On a closed link the call of `open` and the answer it carries decide the link (R218). -/
theorem linkAfter_openLink (config : TransportConfig) (a : TransportAnswer) :
    linkAfter .closed [.openLink config a] = openedLink a := by
  cases a <;> rfl

theorem exec_linkAccounted (h : exec i s = .next t) : LinkAccounted s t := by
  cases exec_next h with
  | raised => exact .of_unchanged rfl rfl
  | sent f => exact ⟨_, rfl, (linkAfter_emitCalls ..).symm⟩
  | built => exact .of_unchanged rfl rfl

theorem openTransport_linkAccounted {config : LinkConfig} (h : openTransport config s = .next t) :
    LinkAccounted s t := by
  obtain ⟨hl, rfl⟩ := openTransport_next h
  refine ⟨_, rfl, ?_⟩
  rw [hl, linkAfter_openLink]

theorem closeTransport_linkAccounted (h : closeTransport s = .next t) : LinkAccounted s t := by
  obtain ⟨-, rfl⟩ := closeTransport_next h
  exact ⟨_, rfl, rfl⟩

end Sys2Proof.Machine

open Sys2Proof Sys2Proof.Machine

/-- Settles O52: the open on a closed link is answered, and the answer decides link and result port. -/
theorem openingTheLink : Obligations.OpeningTheLink := by
  intro s config rest h hl
  have hopen := openTransport_of_closed (s := { s with caller := rest }) config hl
  refine ⟨_, (step_openLink h).trans hopen, rfl, rfl, rfl, rfl, rfl, rfl, rfl, fun ha => ?_, fun ha => ?_⟩
  · simp [ha, openedLink, openResult]
  · simp [ha, openedLink, openResult]

/-- Settles O56: of all that a step can do only the caller's open and close append a call that moves the
link. -/
theorem linkFollowsTheCallersCalls : Obligations.LinkFollowsTheCallersCalls := by
  intro s t h
  cases step_next h with
  | idled => exact LinkAccounted.of_unchanged rfl rfl
  | openedBy config rest t _ ht => exact openTransport_linkAccounted (s := { s with caller := rest }) ht
  | closedBy rest t _ ht => exact closeTransport_linkAccounted (s := { s with caller := rest }) ht
  | ran i a rest t _ _ ht => exact exec_linkAccounted (s := { s with caller := rest }) ht

/-- Settles O50: the step answers two commands at once with the refusal, whatever they are. -/
theorem twoCommandsAtOnceAreRefused : Obligations.TwoCommandsAtOnceAreRefused :=
  fun _ _ _ _ h => step_together h

/-- Settles O51: a command takes one of the two command paths, and each begins with the link test. -/
theorem commandOnAClosedLinkIsRefused : Obligations.CommandOnAClosedLinkIsRefused :=
  fun _ _ hc hl => exec_of_closed hl hc

/-- Settles O53: the close of an open link, and the step with no action pending. -/
theorem closingAndIdling : Obligations.ClosingAndIdling :=
  ⟨fun s rest h hl => (step_closeLink h).trans (closeTransport_of_opened (s := { s with caller := rest }) hl),
    fun _ h => step_idle h⟩
end
